-- ==== Sys2Proof/Word.lean ====
section
/-! DEFINITION. The word types of OZEC: every register the spec treats as bits has a width (00_scope R10). -/

namespace Sys2Proof

/-- A chip register, an EEPROM byte, an IMG byte (00_scope R8). -/
abbrev Byte := BitVec 8

/-- An EEPROM word, `b1 : b0` (20_memory R65). -/
abbrev Word16 := BitVec 16

/-- A host register or a command word (10_state R18, 30_encoding R86). -/
abbrev Word32 := BitVec 32

end Sys2Proof
end

