-- ==== Sys2Proof/Machine/Chip.lean ====
section
/-! DEFINITION. The literals of the spec, each named so that a corrected value can be substituted (93 I19,
00_scope R4; log entry 17): the chip register indices (10_state R40), the control codes (30_encoding R91), the
EEPROM layout (10_state R43) and the scales of the decoders (43_measure R142, R144, R147). -/

namespace Sys2Proof.Machine

/-! Chip registers (10_state R40). -/

abbrev regChipId     : Byte := 0x00
abbrev regReboot     : Byte := 0x15
/-- Low register of the cell-0 pair; cell c is at 0x32+2c, 0x33+2c. -/
abbrev regCellLo     : Byte := 0x32
abbrev regCellHi     : Byte := 0x33
abbrev regCurrentLo  : Byte := 0x54
abbrev regCurrentHi  : Byte := 0x55
abbrev regEeDataLo   : Byte := 0x5C
abbrev regEeDataHi   : Byte := 0x5D
abbrev regEeAddr     : Byte := 0x5E
abbrev regEeControl  : Byte := 0x5F
abbrev regPasswordLo : Byte := 0x69
abbrev regPasswordHi : Byte := 0x6A
abbrev regAuthStatus : Byte := 0x6F

/-! Control codes written to chip register 0x5F (30_encoding R91). -/

abbrev codeEeLock  : Byte := 0x00
abbrev codeEeAuth  : Byte := 0x50
abbrev codeEeWrite : Byte := 0x52
abbrev codeEeErase : Byte := 0x53
abbrev codeEeRead  : Byte := 0x55

/-! EEPROM layout (10_state R43). -/

abbrev eeChargeOffset    : Byte := 0x02
abbrev eeDischargeOffset : Byte := 0x04
abbrev eeLimitWord       : Byte := 0x28
abbrev eeSenseResistor   : Byte := 0x34
abbrev eeOvThreshold     : Byte := 0x4A
abbrev eePassword        : Byte := 0x7A

/-! Sizes (00_scope R8) and scales (43_measure R142, R144, R147). -/

abbrev expectedChipId  : Byte := 0x02
abbrev cellCount       : Nat := 13
abbrev imageSize       : Nat := 128
abbrev wordCount       : Nat := 64
/-- 10 µV units per ADC count, the source's 1.22 mV. -/
abbrev adcScale        : Nat := 122
/-- 10 µA units per count and tenth of a milliohm, the source's 7.63e-6. -/
abbrev currentScale    : Int := 7630
/-- Milliamps per count and tenth of a milliohm, the source's 5e-3. -/
abbrev limitScale      : Int := 50000
/-- The default sense resistor code, 2.5 mΩ. -/
abbrev defaultResistor : Nat := 25
/-- The largest 13-bit ADC code. -/
abbrev maxCode         : Nat := 8191

/-! Bits of the authentication status 0x6F (10_state R42, 45_status R168). -/

abbrev bitPwdFail : Nat := 7
abbrev bitPwdOk   : Nat := 6
abbrev bitPwdBusy : Nat := 5
/-- Every named bit of 0x6F; bit 4 has no name. -/
abbrev tagMask    : Byte := 0xEF

/-- The busy flag of chip register 0x5F (10_state R41). -/
abbrev bitBusy    : Nat := 7

end Sys2Proof.Machine
end

