-- ==== Sys2Proof/Syntax.lean ====
section
/-! DEFINITION. The instructions of OZEC: one constructor per row of spec/opcode_table.json, that is the
twenty-three host commands of 30_encoding R87 and the five chip-side control codes of R91. Operands are the
unsigned bit fields of the command word (R88), so every term is encodable. -/

namespace Sys2Proof

/-- A row of the opcode table with its operands. -/
inductive Instr where
  /-- RDREG: read one chip register (40_bus R105). -/
  | rdreg (reg : Byte)
  /-- WRREG: write one chip register (40_bus R106). -/
  | wrreg (reg data : Byte)
  /-- CHIPID: check the chip identity (40_bus R107). -/
  | chipid
  /-- REBOOT: reboot the chip (40_bus R108). -/
  | reboot
  /-- RDWORD: read one EEPROM word (41_eeprom R116). -/
  | rdword (eaddr : Byte)
  /-- WRWORD: write one EEPROM word (41_eeprom R117). -/
  | wrword (eaddr b0 b1 : Byte)
  /-- LOCK: release EEPROM access (41_eeprom R118). -/
  | lock
  /-- RDIMG: read the whole EEPROM into IMG (41_eeprom R119). -/
  | rdimg
  /-- REWRITE: authenticate, erase, rewrite (42_auth R132). -/
  | rewrite
  /-- LOADIMG: load IMG from the file port (41_eeprom R120). -/
  | loadimg
  /-- SAVEIMG: write IMG to the file port (41_eeprom R121). -/
  | saveimg
  /-- CELLV: cell voltage (43_measure R143). -/
  | cellv (sel : Byte)
  /-- CURR: pack current (43_measure R144). -/
  | curr
  /-- RSENSE: sense resistor (43_measure R145). -/
  | rsense
  /-- LIMIT: current limit (43_measure R147). -/
  | limit (sel : Byte) (lsb wm1 : BitVec 4)
  /-- THRESH: voltage threshold (43_measure R148). -/
  | thresh (sel : Byte)
  /-- ADC2MV: code to voltage (43_measure R149). -/
  | adc2mv (code : BitVec 13)
  /-- V2ADC: voltage to code (43_measure R150). -/
  | v2adc (x : BitVec 24)
  /-- SETRS: set the sense resistor in IMG (43_measure R151). -/
  | setrs (t : BitVec 16)
  /-- SETVL: set a voltage threshold in IMG (43_measure R152). -/
  | setvl (sel : BitVec 2) (val : BitVec 20)
  /-- UNPACK: extract a bit field from an EEPROM word (44_unpack R162). -/
  | unpack (eaddr : Byte) (lsb wm1 : BitVec 4) (sgn : Bool)
  /-- SEXT4: the signed calibration nibble of a byte (44_unpack R163). -/
  | sext4 (b : Byte)
  /-- DECAUTH: decode an authentication-status byte (45_status R167). -/
  | decauth (s : Byte)
  /-- EE_LOCK: control code 0x00, "release/lock access" (30_encoding R91). -/
  | eeLock
  /-- EE_AUTH: control code 0x50, "request privileged access" (30_encoding R91). -/
  | eeAuth
  /-- EE_WRITE: control code 0x52, "enable write mode" (30_encoding R91). -/
  | eeWrite
  /-- EE_ERASE: control code 0x53, "erase whole EEPROM" (30_encoding R91). -/
  | eeErase
  /-- EE_READ: control code 0x55, word-read mode (30_encoding R91). -/
  | eeRead
deriving DecidableEq, Repr

/-- An encoded row: a 32-bit host command word (30_encoding R86), or an 8-bit code for chip register 0x5F (R91). -/
inductive Code where
  | command (w : Word32)
  | control (b : Byte)
deriving DecidableEq, Repr

end Sys2Proof
end

