-- ==== Sys2Proof/Decode.lean ====
section
/-! DEFINITION. The decoder of command words (30_encoding R86, R87, R89) and of the chip-side control codes
(R91), the table of masks and matches they follow, and the encoder. -/

namespace Sys2Proof

open Machine

/-- Why a code is no instruction (30_encoding R89; for a control code R91). -/
inductive DecodeError where
  /-- The opcode byte is in no row of the table. -/
  | unknownOpcode
  /-- A reserved-zero bit of the row is set. -/
  | reservedBits
  /-- The byte is none of the five control codes. -/
  | unknownControlCode
deriving DecidableEq, Repr

/-! The fields of a command word (30_encoding R86). -/

/-- OP, bits 31:24. -/
def opField (w : Word32) : Byte := w.extractLsb' 24 8

/-- REG, EADDR, SEL of formats R, W, S, L, F: bits 23:16. -/
def byte2Field (w : Word32) : Byte := w.extractLsb' 16 8

/-- DATA, B0: bits 15:8. -/
def byte1Field (w : Word32) : Byte := w.extractLsb' 8 8

/-- B1: bits 7:0. -/
def byte0Field (w : Word32) : Byte := w.extractLsb' 0 8

/-- LSB of formats L and F: bits 15:12. -/
def lsbField (w : Word32) : BitVec 4 := w.extractLsb' 12 4

/-- WM1 of formats L and F: bits 11:8. -/
def wm1Field (w : Word32) : BitVec 4 := w.extractLsb' 8 4

/-- SGN of format F: bit 7. -/
def sgnField (w : Word32) : Bool := w.getLsbD 7

/-- The row's reserved-zero bits decide (30_encoding R89). -/
def reserved (zero : Bool) (i : Instr) : Except DecodeError Instr :=
  if zero then .ok i else .error .reservedBits

/-- The command a 32-bit word names (30_encoding R87), or why it is illegal (R89). -/
def decodeCommand (w : Word32) : Except DecodeError Instr :=
  if opField w = 0x01 then reserved (w.extractLsb' 0 16 == 0) (.rdreg (byte2Field w))
  else if opField w = 0x02 then reserved (w.extractLsb' 0 8 == 0) (.wrreg (byte2Field w) (byte1Field w))
  else if opField w = 0x03 then reserved (w.extractLsb' 0 24 == 0) .chipid
  else if opField w = 0x04 then reserved (w.extractLsb' 0 24 == 0) .reboot
  else if opField w = 0x10 then reserved (w.extractLsb' 0 16 == 0) (.rdword (byte2Field w))
  else if opField w = 0x11 then .ok (.wrword (byte2Field w) (byte1Field w) (byte0Field w))
  else if opField w = 0x12 then reserved (w.extractLsb' 0 24 == 0) .lock
  else if opField w = 0x13 then reserved (w.extractLsb' 0 24 == 0) .rdimg
  else if opField w = 0x14 then reserved (w.extractLsb' 0 24 == 0) .rewrite
  else if opField w = 0x18 then reserved (w.extractLsb' 0 24 == 0) .loadimg
  else if opField w = 0x19 then reserved (w.extractLsb' 0 24 == 0) .saveimg
  else if opField w = 0x20 then reserved (w.extractLsb' 0 16 == 0) (.cellv (byte2Field w))
  else if opField w = 0x21 then reserved (w.extractLsb' 0 24 == 0) .curr
  else if opField w = 0x22 then reserved (w.extractLsb' 0 24 == 0) .rsense
  else if opField w = 0x23 then
    reserved (w.extractLsb' 0 8 == 0) (.limit (byte2Field w) (lsbField w) (wm1Field w))
  else if opField w = 0x24 then reserved (w.extractLsb' 0 16 == 0) (.thresh (byte2Field w))
  else if opField w = 0x25 then reserved (w.extractLsb' 13 11 == 0) (.adc2mv (w.extractLsb' 0 13))
  else if opField w = 0x26 then .ok (.v2adc (w.extractLsb' 0 24))
  else if opField w = 0x27 then reserved (w.extractLsb' 16 8 == 0) (.setrs (w.extractLsb' 0 16))
  else if opField w = 0x28 then
    reserved (w.extractLsb' 20 2 == 0) (.setvl (w.extractLsb' 22 2) (w.extractLsb' 0 20))
  else if opField w = 0x30 then
    reserved (w.extractLsb' 0 7 == 0) (.unpack (byte2Field w) (lsbField w) (wm1Field w) (sgnField w))
  else if opField w = 0x31 then reserved (w.extractLsb' 8 16 == 0) (.sext4 (byte0Field w))
  else if opField w = 0x38 then reserved (w.extractLsb' 8 16 == 0) (.decauth (byte0Field w))
  else .error .unknownOpcode

/-- The control code a byte for chip register 0x5F is (30_encoding R91). -/
def decodeControl (b : Byte) : Except DecodeError Instr :=
  if b = codeEeLock then .ok .eeLock
  else if b = codeEeAuth then .ok .eeAuth
  else if b = codeEeWrite then .ok .eeWrite
  else if b = codeEeErase then .ok .eeErase
  else if b = codeEeRead then .ok .eeRead
  else .error .unknownControlCode

/-- The instruction of a code of either width. -/
def decode : Code → Except DecodeError Instr
  | .command w => decodeCommand w
  | .control b => decodeControl b

/-- The instruction of an opcode-table row's bits: 32 for a command, 8 for a control code. -/
def decodeTableWord (nbits w : Nat) : Option Instr :=
  if nbits = 32 then (decodeCommand (BitVec.ofNat 32 w)).toOption
  else if nbits = 8 then (decodeControl (BitVec.ofNat 8 w)).toOption
  else none

/-- The code of an instruction, laid out as 30_encoding R86 gives each format. -/
def encode : Instr → Code
  | .rdreg reg => .command (0x01#8 ++ reg ++ 0#16)
  | .wrreg reg data => .command (0x02#8 ++ reg ++ data ++ 0#8)
  | .chipid => .command (0x03#8 ++ 0#24)
  | .reboot => .command (0x04#8 ++ 0#24)
  | .rdword ea => .command (0x10#8 ++ ea ++ 0#16)
  | .wrword ea b0 b1 => .command (0x11#8 ++ ea ++ b0 ++ b1)
  | .lock => .command (0x12#8 ++ 0#24)
  | .rdimg => .command (0x13#8 ++ 0#24)
  | .rewrite => .command (0x14#8 ++ 0#24)
  | .loadimg => .command (0x18#8 ++ 0#24)
  | .saveimg => .command (0x19#8 ++ 0#24)
  | .cellv sel => .command (0x20#8 ++ sel ++ 0#16)
  | .curr => .command (0x21#8 ++ 0#24)
  | .rsense => .command (0x22#8 ++ 0#24)
  | .limit sel lsb wm1 => .command (0x23#8 ++ sel ++ lsb ++ wm1 ++ 0#8)
  | .thresh sel => .command (0x24#8 ++ sel ++ 0#16)
  | .adc2mv code => .command (0x25#8 ++ 0#11 ++ code)
  | .v2adc x => .command (0x26#8 ++ x)
  | .setrs t => .command (0x27#8 ++ 0#8 ++ t)
  | .setvl sel val => .command (0x28#8 ++ sel ++ 0#2 ++ val)
  | .unpack ea lsb wm1 sgn => .command (0x30#8 ++ ea ++ lsb ++ wm1 ++ BitVec.ofBool sgn ++ 0#7)
  | .sext4 b => .command (0x31#8 ++ 0#16 ++ b)
  | .decauth s => .command (0x38#8 ++ 0#16 ++ s)
  | .eeLock => .control codeEeLock
  | .eeAuth => .control codeEeAuth
  | .eeWrite => .control codeEeWrite
  | .eeErase => .control codeEeErase
  | .eeRead => .control codeEeRead

/-- The masks and matches of the command rows (30_encoding R87, opcode_table.json): a decoder tests
`(w & mask) == match`. -/
def commandRows : List (Word32 × Word32) :=
  [(0xFF00FFFF, 0x01000000), (0xFF0000FF, 0x02000000), (0xFFFFFFFF, 0x03000000), (0xFFFFFFFF, 0x04000000),
   (0xFF00FFFF, 0x10000000), (0xFF000000, 0x11000000), (0xFFFFFFFF, 0x12000000), (0xFFFFFFFF, 0x13000000),
   (0xFFFFFFFF, 0x14000000), (0xFFFFFFFF, 0x18000000), (0xFFFFFFFF, 0x19000000), (0xFF00FFFF, 0x20000000),
   (0xFFFFFFFF, 0x21000000), (0xFFFFFFFF, 0x22000000), (0xFF0000FF, 0x23000000), (0xFF00FFFF, 0x24000000),
   (0xFFFFE000, 0x25000000), (0xFF000000, 0x26000000), (0xFFFF0000, 0x27000000), (0xFF300000, 0x28000000),
   (0xFF00007F, 0x30000000), (0xFFFFFF00, 0x31000000), (0xFFFFFF00, 0x38000000)]

/-- A word is legal when some row's test holds (30_encoding R87, R89). -/
def legalWord (w : Word32) : Bool := commandRows.any fun row => w &&& row.1 == row.2

end Sys2Proof
end

