-- ==== Sys2Proof/Config.lean ====
section
/-! DEFINITION. What an implementation or the environment fixes: the OPEN parameters of 00_scope R9 and
20_memory R73, the shape of an answer of the chip and of the file port (20_memory R70, R63), and the free
values. Every free value is a constant without a body, so nothing can be proved of it. -/

namespace Sys2Proof

/-- The chip's whole answer to one register read (40_bus R103): the acknowledge of each address phase
(`true` is ACK), the data byte and the discarded dummy byte. -/
structure BusAnswer where
  ack1  : Bool
  ack2  : Bool
  data  : Byte
  dummy : Byte
deriving DecidableEq, Repr, Inhabited

/-- One answer of the file port (20_memory R63), read according to the request it answers: `ioerr` for every
request, `size` for FileSize, `data` for FileRead. -/
structure FileAnswer where
  ioerr : Bool
  size  : Nat
  data  : List Byte
deriving DecidableEq, Repr, Inhabited

/-- `DEV_ADDR_RESET`, the chip's bus address at reset: OPEN (00_scope R9, 92 D14). -/
opaque Config.devAddrReset : BitVec 7

/-- `OZEC_BASE`, where the host registers start on the host bus: OPEN (20_memory R73, 92 D2). -/
opaque Config.ozecBase : Nat

/-- What the chip answers once the answers listed in the state are used up: the k-th free draw (20_memory R70). -/
opaque Config.busAnswer : Nat → BusAnswer

/-- What the file port answers once the answers listed in the state are used up: the k-th free draw (20_memory R63). -/
opaque Config.fileAnswer : Nat → FileAnswer

/-- The unspecified byte a host read of HIMGD returns at an index whose valid bit is 0 (10_state R37): the k-th free draw. -/
opaque Config.freeByte : Nat → Byte

/-- The unspecified value of IMG[i] while V[i] = 0 (10_state R36), by index. No command reads it: SAVEIMG, REWRITE
and SETVL check the valid bits first. -/
opaque Config.imgByte : Nat → Byte

end Sys2Proof
end

