-- ==== Sys2Proof/Machine/Operands.lean ====
section
/-! DEFINITION. The operand forms of the commands: the domains of 30_encoding R90, the derived field width
of R88, and the decoders' exact arithmetic (00_scope R12, 43_measure R142, R146, 44_unpack R161). -/

namespace Sys2Proof.Machine

/-! Domains (30_encoding R90). -/

/-- RDWORD, WRWORD, UNPACK: EADDR even and at most 126 (20_memory R68). -/
def eaddrOk (a : Byte) : Bool := a.toNat % 2 == 0 && a.toNat ≤ 126

/-- The field width of formats L and F (30_encoding R88). -/
def fieldWidth (wm1 : BitVec 4) : Nat := wm1.toNat + 1

/-- UNPACK and LIMIT: the field ends inside the 16-bit word. -/
def fieldOk (lsb wm1 : BitVec 4) : Bool := lsb.toNat + fieldWidth wm1 ≤ 16

/-- CELLV: SEL ≤ 12. -/
def cellOk (sel : Byte) : Bool := sel.toNat < cellCount

/-- LIMIT: SEL is 0 or 1, WM1 ≤ 7, and the field ends inside the word. -/
def limitOk (sel : Byte) (lsb wm1 : BitVec 4) : Bool := sel.toNat ≤ 1 && wm1.toNat ≤ 7 && fieldOk lsb wm1

/-- THRESH: SEL ≤ 3. -/
def threshOk (sel : Byte) : Bool := sel.toNat ≤ 3

/-- SETRS: 1 ≤ t ≤ 255. -/
def resistorOk (t : BitVec 16) : Bool := 1 ≤ t.toNat && t.toNat ≤ 255

/-- `fdiv(x, 122)` for a voltage x ≥ 0 in 10 µV units; for n ≥ 0 both divisions of 00_scope R12 are this one. -/
def v2adc (x : Nat) : Nat := x / adcScale

/-- V2ADC and SETVL: the code fits 13 bits. -/
def voltageOk (x : Nat) : Bool := v2adc x ≤ maxCode

/-! Arithmetic of the decoders. -/

/-- Division rounded toward zero (00_scope R12). -/
def tdiv (n d : Int) : Int := Int.tdiv n d

/-- Division rounded toward minus infinity (00_scope R12). -/
def fdiv (n d : Int) : Int := Int.fdiv n d

/-- A 13-bit code in 10 µV units (43_measure R142). -/
def adc2mv10 (code : Nat) : Nat := adcScale * code

/-- The sense resistor in tenths of a milliohm; a stored 0 means the default (43_measure R142). -/
def rsEff (b : Byte) : Nat := if b = 0 then defaultResistor else b.toNat

/-- How HCFG.NIBMODE reads a calibration nibble (10_state R33). -/
inductive NibMode where
  | sext
  | cdiv
deriving DecidableEq, Repr

/-- The signed calibration offset in the high nibble of a byte (43_measure R146). -/
def nib (b : Byte) (mode : NibMode) : Int :=
  match mode with
  | .sext => fdiv b.toInt 16
  | .cdiv => tdiv b.toInt 16

/-- The W-bit field of a 16-bit word at lsb, as an unsigned number (44_unpack R161, 43_measure R147). -/
def fieldNat (w : Word16) (lsb W : Nat) : Nat := (w.extractLsb' lsb W).toNat

/-- `Field(w, lsb, W, sgn)` (44_unpack R161). -/
def field (w : Word16) (lsb W : Nat) (sgn : Bool) : Word32 :=
  if sgn then (w.extractLsb' lsb W).signExtend 32 else (w.extractLsb' lsb W).setWidth 32

/-- An EEPROM word from its two bytes, `b1 : b0` (20_memory R65). -/
def wordOf (b1 b0 : Byte) : Word16 := b1 ++ b0

/-- The low and high register of cell c (10_state R40). -/
def cellLoReg (sel : Byte) : Byte := regCellLo + 2 * sel
def cellHiReg (sel : Byte) : Byte := regCellHi + 2 * sel

/-- The EEPROM word of a threshold selector (43_measure R148). -/
def threshAddr (sel : Byte) : Byte := eeOvThreshold + 2 * sel

/-- The EEPROM word that holds the offset nibble: charge 0x02, discharge 0x04 (43_measure R147). -/
def offsetAddr (sel : Byte) : Byte := if sel = 0 then eeChargeOffset else eeDischargeOffset

/-- CELLV's raw code, `(hi << 5) + (lo >> 3)` (43_measure R143). -/
def cellRaw (hi lo : Byte) : Nat := (hi.toNat <<< 5) + (lo.toNat >>> 3)

/-- THRESH's code, `(b0 >> 3) | (b1 << 5)` (43_measure R148). -/
def threshCode (b1 b0 : Byte) : Nat := (b0.toNat >>> 3) ||| (b1.toNat <<< 5)

/-- The new low byte of SETVL: bits 2:0 kept, the code's low five bits above them (43_measure R152). -/
def setvlLo (old : Byte) (code : Nat) : Byte :=
  (old &&& 0x07) ||| (BitVec.ofNat 8 ((code &&& 0x1F) <<< 3))

/-- The new high byte of SETVL (43_measure R152). -/
def setvlHi (code : Nat) : Byte := BitVec.ofNat 8 (code >>> 5)

/-- A signed result as HRES holds it: 32-bit two's complement (00_scope R10). -/
def hresInt (x : Int) : Word32 := BitVec.ofInt 32 x

/-- An unsigned result as HRES holds it. -/
def hresNat (x : Nat) : Word32 := BitVec.ofNat 32 x

/-- CURR's result in 10 µA units (43_measure R144). -/
def currentResult (raw : Int) (t : Nat) : Int := tdiv (raw * currentScale) t

/-- LIMIT's result in milliamps for a field value v and an offset o (43_measure R147). -/
def limitResult (v : Nat) (o : Int) (t : Nat) : Int := tdiv ((v + o) * limitScale) t

end Sys2Proof.Machine
end

