-- ==== Sys2Proof/Machine/State.lean ====
section
/-! DEFINITION. The state of OZEC as plain data: the host registers (10_state R18-R37), IMG with its valid bits
(R36), the sequencer's latches (R38), the BUS_READY input (40_bus R101), and the model's own fields for the
environment: what the chip, the file port and the host will do, and what OZEC has requested and returned. -/

namespace Sys2Proof.Machine

/-- HSTAT.ERRCODE (60_exceptions R170); codes 11-15 are never produced. -/
inductive ErrCode where
  | none
  | transportUnavailable
  | unknownChip
  | authFailed
  | imageSizeMismatch
  | ioFailure
  | eepromTimeout
  | transportNack
  | configError
  | validationError
  | illegalCommand
deriving DecidableEq, Repr

/-- HSTAT.PHASE (10_state R29); values 5-7 are never produced. -/
inductive Phase where
  | idle
  | addressSet
  | modeSet
  | wordRead
  | wordWrite
deriving DecidableEq, Repr

/-- HSTAT.AUTHST (10_state R31, 42_auth R133); values 4-7 are never produced. -/
inductive AuthState where
  | none
  | success
  | passwordRejected
  | busy
deriving DecidableEq, Repr

/-- HSTAT, field by field (10_state R22). -/
structure Hstat where
  busy     : Bool
  done     : Bool
  err      : Bool
  warn     : Bool
  ovr      : Bool
  serr     : Bool
  errcode  : ErrCode
  phase    : Phase
  lastmode : Byte
  authst   : AuthState
deriving DecidableEq, Repr

/-- HCFG.SUBST (10_state R33). -/
inductive Substrate where
  | liveDevice
  | fileImage
deriving DecidableEq, Repr

/-- HCFG, field by field (10_state R33). -/
structure Hcfg where
  devaddr : BitVec 7
  subst   : Substrate
  force   : Bool
  nibmode : NibMode
deriving DecidableEq, Repr

/-- IMG and its valid bits (10_state R36): byte i is listed exactly when V[i] = 1. An unlisted byte has no
value (log entry 7). -/
abbrev Memory := List Host.Cell

/-- The canonical form of IMG: byte indices strictly rising, each below 128. -/
abbrev Memory.wf (m : Memory) : Prop :=
  (m.map Prod.fst).Pairwise (· < ·) ∧ ∀ c ∈ m, c.1 < imageSize

/-- The temporaries named in the commands' pseudocodes (10_state R38), each under its own name. -/
structure Temps where
  s    : Byte
  d    : Byte
  id   : Byte
  lo   : Byte
  hi   : Byte
  b0   : Byte
  b1   : Byte
  l0   : Byte
  l1   : Byte
  o0   : Byte
  o1   : Byte
  r0   : Byte
  r1   : Byte
  pwLo : Byte
  pwHi : Byte
  n    : Nat
  r    : List Byte
  a    : Byte
  code : Nat
  raw  : Int
  t    : Nat
  w    : Word16
  W    : Nat
  v    : Nat
  o    : Int
deriving DecidableEq, Repr

/-- A request OZEC issues: a bus transaction to the chip at a device address (40_bus R103, R104), or a request on
the file port (20_memory R63). -/
inductive Request where
  | busR (dev : BitVec 7) (reg : Byte)
  | busW (dev : BitVec 7) (reg v : Byte)
  | fileSize
  | fileRead (off n : Nat)
  | fileWriteAll (bytes : List Byte)
deriving DecidableEq, Repr

/-- What the host side does between two micro-operations (00_scope R7, 20_memory R76; log entry 2). -/
inductive HostAct where
  /-- Nothing: the sequencer performs one micro-operation. -/
  | pass
  /-- A read of the host register at an offset (10_state R18). -/
  | read (off : Nat)
  /-- A write of a whole word to an offset (10_state R19). -/
  | write (off : Nat) (w : Word32)
  /-- A read at an address of the host bus (20_memory R73). -/
  | readAt (addr : Nat)
  /-- A write at an address of the host bus (20_memory R73). -/
  | writeAt (addr : Nat) (w : Word32)
  /-- A write of HSTAT in the same step as one micro-operation of the sequencer (10_state R22). -/
  | statWith (w : Word32)
  /-- The platform drives BUS_READY (40_bus R101). -/
  | busReady (b : Bool)
  /-- OZEC's reset (70_reset_and_hazards R191, R193). -/
  | reset
deriving DecidableEq, Repr

/-- The whole machine. -/
structure State where
  hcmd     : Word32
  hstat    : Hstat
  hres0    : Word32
  hres1    : Word32
  hcfg     : Hcfg
  hpoll    : Word32
  himga    : BitVec 7
  img      : Memory
  cur      : Word32
  pos      : Nat
  pollcnt  : Word32
  widx     : BitVec 7
  pw       : Word16
  authByte : Byte
  tmp      : Temps
  busReady : Bool
  chipIn   : List BusAnswer
  fileIn   : List FileAnswer
  draws    : Nat
  host     : List HostAct
  trace    : List Request
  reads    : List Word32
deriving DecidableEq, Repr

/-- Why a step can stop the machine. OZEC itself never stops: an error is a next state (60_exceptions R172). -/
inductive Fault where
  /-- Raised by runProgram when the sequencer's position lies in no micro-operation of the current command. No run
  reaches such a position (log entry 15). Safe: the model stops where the hardware has no such state. -/
  | lostPosition
deriving DecidableEq, Repr

/-- Why a step can have no meaning. -/
inductive Refusal where
  /-- Raised by exec's arm of an instruction that has no meaning yet. No arm does. Safe. -/
  | notModelled (mnemonic : String)
deriving DecidableEq, Repr

/-- HSTAT at reset (10_state R22, 70_reset_and_hazards R191). -/
def Hstat.reset : Hstat where
  busy     := false
  done     := false
  err      := false
  warn     := false
  ovr      := false
  serr     := false
  errcode  := .none
  phase    := .idle
  lastmode := 0x00
  authst   := .none

/-- HCFG at reset (10_state R33). -/
def Hcfg.reset : Hcfg where
  devaddr := Config.devAddrReset
  subst   := .liveDevice
  force   := false
  nibmode := .sext

/-- The temporaries at reset. DESIGN CHOICE: they hold no value there (10_state R38); log entry 8. Unsafe. -/
def Temps.reset : Temps where
  s    := 0
  d    := 0
  id   := 0
  lo   := 0
  hi   := 0
  b0   := 0
  b1   := 0
  l0   := 0
  l1   := 0
  o0   := 0
  o1   := 0
  r0   := 0
  r1   := 0
  pwLo := 0
  pwHi := 0
  n    := 0
  r    := []
  a    := 0
  code := 0
  raw  := 0
  t    := 0
  w    := 0
  W    := 0
  v    := 0
  o    := 0

/-- The machine right after reset (70_reset_and_hazards R191). DESIGN CHOICE, unsafe: the latches `cur` to `tmp`
(log entry 8) and `busReady` (log entry 4); the model's own fields start empty (log entries 1, 2, 9, 10). -/
def State.reset : State where
  hcmd     := 0
  hstat    := Hstat.reset
  hres0    := 0
  hres1    := 0
  hcfg     := Hcfg.reset
  hpoll    := 0
  himga    := 0
  img      := []
  cur      := 0
  pos      := 0
  pollcnt  := 0
  widx     := 0
  pw       := 0
  authByte := 0
  tmp      := Temps.reset
  busReady := true
  chipIn   := []
  fileIn   := []
  draws    := 0
  host     := []
  trace    := []
  reads    := []

/-! One named update per field, so that terms stay small; Laws/State.lean says what each leaves. -/

def State.setHcmd (s : State) (x : Word32) : State := { s with hcmd := x }
def State.setHstat (s : State) (x : Hstat) : State := { s with hstat := x }
def State.setHres0 (s : State) (x : Word32) : State := { s with hres0 := x }
def State.setHres1 (s : State) (x : Word32) : State := { s with hres1 := x }
def State.setHcfg (s : State) (x : Hcfg) : State := { s with hcfg := x }
def State.setHpoll (s : State) (x : Word32) : State := { s with hpoll := x }
def State.setHimga (s : State) (x : BitVec 7) : State := { s with himga := x }
def State.setImg (s : State) (x : Memory) : State := { s with img := x }
def State.setCur (s : State) (x : Word32) : State := { s with cur := x }
def State.setPos (s : State) (x : Nat) : State := { s with pos := x }
def State.setPollcnt (s : State) (x : Word32) : State := { s with pollcnt := x }
def State.setWidx (s : State) (x : BitVec 7) : State := { s with widx := x }
def State.setPw (s : State) (x : Word16) : State := { s with pw := x }
def State.setAuthByte (s : State) (x : Byte) : State := { s with authByte := x }
def State.setTmp (s : State) (x : Temps) : State := { s with tmp := x }
def State.setBusReady (s : State) (x : Bool) : State := { s with busReady := x }
def State.setChipIn (s : State) (x : List BusAnswer) : State := { s with chipIn := x }
def State.setFileIn (s : State) (x : List FileAnswer) : State := { s with fileIn := x }
def State.setDraws (s : State) (x : Nat) : State := { s with draws := x }
def State.setHost (s : State) (x : List HostAct) : State := { s with host := x }
def State.setTrace (s : State) (x : List Request) : State := { s with trace := x }
def State.setReads (s : State) (x : List Word32) : State := { s with reads := x }

end Sys2Proof.Machine
end

