-- ==== Sys2Proof/Machine/Flags.lean ====
section
/-! DEFINITION. Every computation of HSTAT: the host's view of it as a word (10_state R22), what accepting,
finishing and failing a command do to it (R21, R24-R28, 60_exceptions R172, R173), what each bus transaction
does to PHASE and LASTMODE (R29, R30), and the authentication class (42_auth R133). -/

namespace Sys2Proof.Machine

/-- The encoding of ERRCODE (60_exceptions R170). -/
def ErrCode.toBits : ErrCode → BitVec 4
  | .none => 0
  | .transportUnavailable => 1
  | .unknownChip => 2
  | .authFailed => 3
  | .imageSizeMismatch => 4
  | .ioFailure => 5
  | .eepromTimeout => 6
  | .transportNack => 7
  | .configError => 8
  | .validationError => 9
  | .illegalCommand => 10

/-- The encoding of PHASE (10_state R29). -/
def Phase.toBits : Phase → BitVec 3
  | .idle => 0
  | .addressSet => 1
  | .modeSet => 2
  | .wordRead => 3
  | .wordWrite => 4

/-- The encoding of AUTHST (10_state R31). -/
def AuthState.toBits : AuthState → BitVec 3
  | .none => 0
  | .success => 1
  | .passwordRejected => 2
  | .busy => 3

/-- HSTAT as the host reads it (10_state R22). -/
def Hstat.word (h : Hstat) : Word32 :=
  0#5 ++ h.authst.toBits ++ h.lastmode ++ 0#1 ++ h.phase.toBits ++ h.errcode.toBits ++ 0#2 ++
    BitVec.ofBool h.serr ++ BitVec.ofBool h.ovr ++ BitVec.ofBool h.warn ++ BitVec.ofBool h.err ++
    BitVec.ofBool h.done ++ BitVec.ofBool h.busy

/-- The encoding of SUBST (10_state R33). -/
def Substrate.toBit : Substrate → BitVec 1
  | .liveDevice => 0
  | .fileImage => 1

/-- The encoding of NIBMODE (10_state R33). -/
def NibMode.toBit : NibMode → BitVec 1
  | .sext => 0
  | .cdiv => 1

/-- HCFG as the host reads it (10_state R33). -/
def Hcfg.word (c : Hcfg) : Word32 :=
  0#21 ++ c.nibmode.toBit ++ BitVec.ofBool c.force ++ c.subst.toBit ++ 0#1 ++ c.devaddr

/-- HCFG after the host writes a word; writes to reserved bits are ignored (10_state R19, R33). -/
def Hcfg.ofWord (w : Word32) : Hcfg where
  devaddr := w.extractLsb' 0 7
  subst   := if w.getLsbD 8 then .fileImage else .liveDevice
  force   := w.getLsbD 9
  nibmode := if w.getLsbD 10 then .cdiv else .sext

/-- HSTAT when a command is accepted (10_state R21). -/
def Hstat.accepted (h : Hstat) : Hstat :=
  { h with busy := true, done := false, err := false, warn := false, errcode := .none, authst := .none }

/-- HSTAT when a command ends with success (60_exceptions R173). -/
def Hstat.finished (h : Hstat) : Hstat :=
  { h with busy := false, done := true }

/-- HSTAT when a command ends with an error (60_exceptions R172). -/
def Hstat.failed (h : Hstat) (code : ErrCode) : Hstat :=
  { h with busy := false, done := true, err := true, serr := true, errcode := code }

/-- HSTAT when a host write is dropped (10_state R34). -/
def Hstat.overrun (h : Hstat) : Hstat := { h with ovr := true }

/-- HSTAT when the host writes it: bits 4 and 5 clear OVR and SERR (10_state R22). -/
def Hstat.cleared (h : Hstat) (w : Word32) : Hstat :=
  { h with ovr := h.ovr && !w.getLsbD 4, serr := h.serr && !w.getLsbD 5 }

/-- CHIPID's warning under FORCE (10_state R26, 40_bus R107). -/
def Hstat.warned (h : Hstat) : Hstat := { h with warn := true }

/-- REWRITE's authentication outcome (10_state R31). -/
def Hstat.withAuth (h : Hstat) (x : AuthState) : Hstat := { h with authst := x }

/-- PHASE and LASTMODE after `BusW(reg, v)` (10_state R29, R30). -/
def Hstat.afterWrite (h : Hstat) (reg v : Byte) : Hstat :=
  if reg = regEeControl then
    { h with phase := if v = codeEeLock then .idle else .modeSet, lastmode := v }
  else if reg = regEeAddr then { h with phase := .addressSet }
  else if reg = regEeDataLo ∨ reg = regEeDataHi then { h with phase := .wordWrite }
  else h

/-- PHASE after `BusR(reg)` (10_state R29). -/
def Hstat.afterRead (h : Hstat) (reg : Byte) : Hstat :=
  if reg = regEeDataLo ∨ reg = regEeDataHi then { h with phase := .wordRead } else h

/-- `AuthClass` of a status byte (42_auth R133). -/
def authClass (s : Byte) : AuthState :=
  if s.getLsbD bitPwdOk then .success
  else if s.getLsbD bitPwdBusy then .busy
  else .passwordRejected

end Sys2Proof.Machine
end

