-- ==== Sys2Proof/Machine/Ops.lean ====
section
/-! DEFINITION. The named operations every meaning is made of: IMG (10_state R36), accepting a command (R21) and
fetching it, ending one with success or an error (60_exceptions R172, R173), the bus and file requests
(40_bus R103, R104, 20_memory R63), the prologue (60_exceptions R171), and the sequencer's micro-operations
(00_scope R14, 10_state R38). -/

namespace Sys2Proof.Machine

/-! ### IMG (10_state R36, R37) -/

/-- The byte at an index, none while its valid bit is 0. -/
def Memory.read : Memory → Nat → Option Byte
  | [], _ => none
  | (b, v) :: rest, a => if a = b then some v else Memory.read rest a

/-- Put a byte at an index, keeping the indices strictly rising. -/
def Memory.put : Memory → Nat → Byte → Memory
  | [], a, v => [(a, v)]
  | (b, u) :: rest, a, v =>
    if a < b then (a, v) :: (b, u) :: rest
    else if a = b then (a, v) :: rest
    else (b, u) :: Memory.put rest a v

/-- Store a byte at an index of IMG; there is no byte at 128 and above, and no run stores there (log entry 7). -/
def Memory.write (m : Memory) (a : Nat) (v : Byte) : Memory := if a < imageSize then m.put a v else m

/-- Store bytes at consecutive indices. -/
def Memory.writeAll : Memory → Nat → List Byte → Memory
  | m, _, [] => m
  | m, a, v :: rest => Memory.writeAll (Memory.write m a v) (a + 1) rest

/-- V[a] (10_state R36). -/
def Memory.valid (m : Memory) (a : Nat) : Bool := (m.read a).isSome

/-- No i in 0..127 has V[i] = 0 (41_eeprom R121, 42_auth R132). -/
def Memory.complete (m : Memory) : Bool := (List.range imageSize).all m.valid

/-- IMG[a]: an unspecified value while V[a] = 0. -/
def State.imgByte (s : State) (a : Nat) : Byte := (s.img.read a).getD (Config.imgByte a)

/-- `MemRead(a, n)` as its bytes, the byte at a first. -/
def State.memRead (s : State) (a n : Nat) : List Byte := (List.range n).map fun k => s.imgByte (a + k)

/-- `MemWrite(a, n, v)` with v as its bytes, the byte at a first; their valid bits become 1. -/
def State.memWrite (s : State) (a : Nat) (bytes : List Byte) : State :=
  s.setImg (s.img.writeAll a bytes)

/-- Bit j of HIMGVk is V[32k + j] (10_state R37). -/
def State.validWord (s : State) (k : Nat) : Word32 :=
  BitVec.ofFnLE fun j : Fin 32 => s.img.valid (32 * k + j.val)

/-! ### Accepting, fetching and ending a command -/

/-- A host write of w to HCMD is accepted as the current command (10_state R21). -/
def State.accept (s : State) (w : Word32) : State :=
  (((((s.setCur w).setHcmd w).setHstat s.hstat.accepted).setHres0 0).setHres1 0).setPos 0

/-- The instruction the sequencer executes: the one CUR names. -/
def State.fetch (s : State) : Except DecodeError Instr := decodeCommand s.cur

/-- `finish()` (60_exceptions R173). -/
def State.finish (s : State) : State := s.setHstat s.hstat.finished

/-- `raise Error(code)`: the machine's whole exception entry (60_exceptions R172, R175). It saves and redirects
nothing; what the command did before stays done. There is no return from it (R176). -/
def State.raise (s : State) (code : ErrCode) : State := s.setHstat (s.hstat.failed code)

/-! ### Requests (40_bus R103, R104, 20_memory R63) -/

/-- Log a request. -/
def State.request (s : State) (r : Request) : State := s.setTrace (s.trace ++ [r])

/-- The chip's next answer, a free draw once the listed ones are used up (20_memory R70). -/
def State.nextBus (s : State) : BusAnswer :=
  match s.chipIn with
  | a :: _ => a
  | [] => Config.busAnswer s.draws

/-- The state once the chip's next answer is taken. -/
def State.dropBus (s : State) : State :=
  match s.chipIn with
  | _ :: rest => s.setChipIn rest
  | [] => s.setDraws (s.draws + 1)

/-- The file port's next answer, a free draw once the listed ones are used up (20_memory R63). -/
def State.nextFile (s : State) : FileAnswer :=
  match s.fileIn with
  | a :: _ => a
  | [] => Config.fileAnswer s.draws

/-- The state once the file port's next answer is taken. -/
def State.dropFile (s : State) : State :=
  match s.fileIn with
  | _ :: rest => s.setFileIn rest
  | [] => s.setDraws (s.draws + 1)

/-- Both address phases were acknowledged. -/
def answered (a : BusAnswer) : Bool := a.ack1 && a.ack2

/-- The n bytes a FileRead returns (20_memory R63). -/
def fileBytes (a : FileAnswer) (n : Nat) : List Byte := (List.range n).map fun k => a.data.getD k 0

/-- `BusW(reg, v)`: one complete transaction; no acknowledge is looked at (40_bus R104). -/
def State.busWrite (s : State) (reg v : Byte) : State :=
  (s.request (.busW s.hcfg.devaddr reg v)).setHstat (s.hstat.afterWrite reg v)

/-- The state after the framing of `BusR(reg)`, acknowledged or not (40_bus R103). -/
def State.busRead (s : State) (reg : Byte) : State :=
  (s.dropBus.request (.busR s.hcfg.devaddr reg)).setHstat (s.hstat.afterRead reg)

/-! ### The prologue (60_exceptions R171) -/

/-- What a command needs (the substrate column of 30_encoding R87). -/
inductive Need where
  | live
  | either
  | noSubstrate
deriving DecidableEq, Repr

/-- The command reaches the live device: it must, or it may and SUBST selects it. -/
def Need.usesBus (need : Need) (subst : Substrate) : Bool :=
  need == .live || (need == .either && subst == .liveDevice)

/-- Checks 2, 3 and 4 of the prologue, in order; check 1 is the decoder's. -/
def prologue (inDomain : Bool) (need : Need) (s : State) : Except ErrCode State :=
  if inDomain = false then .error .validationError
  else if need = .live ∧ s.hcfg.subst = .fileImage then .error .configError
  else if need.usesBus s.hcfg.subst = true ∧ s.busReady = false then .error .transportUnavailable
  else .ok s

/-! ### Micro-operations (00_scope R14) -/

/-- One line of a command's pseudocode. -/
inductive MicroOp where
  /-- An internal computation, which may raise an error. -/
  | compute (f : State → Except ErrCode State)
  /-- One poll of `Wait()` (41_eeprom R112). -/
  | poll
  /-- `x <- BusR(reg)`. -/
  | busR (reg : Byte) (store : Byte → State → State)
  /-- `BusW(reg, v)`. -/
  | busW (reg : Byte) (v : State → Byte)
  /-- `n <- FileSize(); if n == IOERR: raise Error(IO_FAILURE)`. -/
  | fileSize
  /-- `r <- FileRead(off, n); if r == IOERR: raise Error(IO_FAILURE)`. -/
  | fileRead (off n : Nat)
  /-- `s <- FileWriteAll(bytes); if s == IOERR: raise Error(IO_FAILURE)`. -/
  | fileWriteAll (bytes : State → List Byte)
  /-- `finish()`. -/
  | finish

/-- What one micro-operation leads to. -/
inductive MicroResult where
  /-- The next line follows. -/
  | advance (s : State)
  /-- A busy poll: the same line again. -/
  | again (s : State)
  /-- The command has completed. -/
  | ended (s : State)

/-- Perform one poll: a NACK comes first, then the busy bit, then the bound (41_eeprom R112, 60_exceptions R177). -/
def performPoll (s : State) : MicroResult :=
  let a := s.nextBus
  let s1 := s.busRead regEeControl
  if answered a = false then .ended (s1.raise .transportNack)
  else
    let s2 := (s1.setTmp { s1.tmp with s := a.data }).setPollcnt (s1.pollcnt + 1)
    if a.data.getLsbD bitBusy = false then .advance s2
    else if s2.hpoll ≠ 0 ∧ s2.pollcnt = s2.hpoll then .ended (s2.raise .eepromTimeout)
    else .again s2

/-- Perform one register read (40_bus R103). -/
def performRead (reg : Byte) (store : Byte → State → State) (s : State) : MicroResult :=
  if answered s.nextBus = false then .ended ((s.busRead reg).raise .transportNack)
  else .advance (store s.nextBus.data (s.busRead reg))

/-- Perform one file request; `use` says what a good answer does. -/
def performFile (r : Request) (use : FileAnswer → State → State) (s : State) : MicroResult :=
  if s.nextFile.ioerr = true then .ended ((s.dropFile.request r).raise .ioFailure)
  else .advance (use s.nextFile (s.dropFile.request r))

/-- Perform one micro-operation. -/
def MicroOp.perform (op : MicroOp) (s : State) : MicroResult :=
  match op with
  | .compute f =>
    match f s with
    | .ok t => .advance t
    | .error code => .ended (s.raise code)
  | .poll => performPoll s
  | .busR reg store => performRead reg store s
  | .busW reg v => .advance (s.busWrite reg (v s))
  | .fileSize => performFile .fileSize (fun a t => t.setTmp { t.tmp with n := a.size }) s
  | .fileRead off n => performFile (.fileRead off n) (fun a t => t.setTmp { t.tmp with r := fileBytes a n }) s
  | .fileWriteAll bytes => performFile (.fileWriteAll (bytes s)) (fun _ t => t) s
  | .finish => .ended s.finish

/-! ### Running a command -/

/-- The turn is over: the host's `pass` is used up. -/
def State.endTurn (s : State) : State :=
  match s.host with
  | .pass :: rest => s.setHost rest
  | _ => s

/-- The sequencer moves to the next line. -/
def State.bump (s : State) : State := s.setPos (s.pos + 1)

/-- Perform the micro-operations from the current line on. While the host side has something listed, one
micro-operation is the whole turn; otherwise the turn goes on until the command completes or a poll reads busy. -/
def runOps : List MicroOp → State → State
  | [], s => s.endTurn
  | op :: rest, s =>
    match op.perform s with
    | .advance t => if t.host.isEmpty then runOps rest t.bump else t.bump.endTurn
    | .again t => t.endTurn
    | .ended t => t.endTurn

/-- One turn of a command whose lines are `ops`, from the sequencer's position. -/
def runProgram (ops : List MicroOp) (s : State) : Host.Outcome State Fault Refusal :=
  match ops.drop s.pos with
  | [] => .fault .lostPosition
  | op :: rest => .next (runOps (op :: rest) s)

/-- A control code of 30_encoding R91 as the instruction it is: the one micro-operation `BusW(0x5F, code)`. -/
def modeWrite (code : Byte) (s : State) : State := ((s.busWrite regEeControl code).bump).endTurn

/-- The lines of an illegal command: check 1 of the prologue (30_encoding R89, 60_exceptions R171). -/
def illegalProgram : List MicroOp := [.compute fun _ => .error .illegalCommand]

/-! ### Lines the commands share -/

/-- A computation that cannot fail. -/
def act (f : State → State) : MicroOp := .compute fun s => .ok (f s)

/-- `if not ok: raise Error(code)`. -/
def require (ok : State → Bool) (code : ErrCode) : MicroOp := .compute fun s => if ok s then .ok s else .error code

/-- `Wait()` (41_eeprom R112). -/
def waitOps : List MicroOp := [act fun s => s.setPollcnt 0, .poll]

/-- `Wait(); BusW(reg, v)`. -/
def waitWrite (reg : Byte) (v : State → Byte) : List MicroOp := waitOps ++ [.busW reg v]

/-- `Wait(); x <- BusR(reg)`. -/
def waitRead (reg : Byte) (store : Byte → State → State) : List MicroOp := waitOps ++ [.busR reg store]

/-- `Lock()` (41_eeprom R113). -/
def lockOps : List MicroOp := waitWrite regEeControl fun _ => codeEeLock

/-- `(b0, b1) <- EeRead(a)` on the live device (41_eeprom R114). -/
def eeReadLive (a : Byte) (store0 store1 : Byte → State → State) : List MicroOp :=
  waitWrite regEeAddr (fun _ => a) ++ waitWrite regEeControl (fun _ => codeEeRead) ++
    waitRead regEeDataHi store1 ++ waitRead regEeDataLo store0 ++ lockOps

/-- The check after FileSize (41_eeprom R114, R120). -/
def requireImageSize : MicroOp := require (fun s => s.tmp.n == imageSize) .imageSizeMismatch

/-- `(b0, b1) <- EeRead(a)` on the file substrate (41_eeprom R114). -/
def eeReadFile (a : Byte) (store0 store1 : Byte → State → State) : List MicroOp :=
  [.fileSize, requireImageSize, .fileRead a.toNat 2,
   act fun s => store1 (s.tmp.r.getD 1 0) (store0 (s.tmp.r.getD 0 0) s)]

/-- `(b0, b1) <- EeRead(a)` on the current substrate (41_eeprom R114). -/
def eeRead (subst : Substrate) (a : Byte) (store0 store1 : Byte → State → State) : List MicroOp :=
  match subst with
  | .liveDevice => eeReadLive a store0 store1
  | .fileImage => eeReadFile a store0 store1

/-- `EeWrite(a, b0, b1)` (41_eeprom R115). -/
def eeWrite (a : Byte) (b0 b1 : State → Byte) : List MicroOp :=
  waitWrite regEeControl (fun _ => codeEeWrite) ++ waitWrite regEeAddr (fun _ => a) ++
    waitWrite regEeDataHi b1 ++ waitWrite regEeDataLo b0 ++ lockOps

/-! Stores into the temporaries (10_state R38). -/

def storeD (x : Byte) (s : State) : State := s.setTmp { s.tmp with d := x }
def storeId (x : Byte) (s : State) : State := s.setTmp { s.tmp with id := x }
def storeLo (x : Byte) (s : State) : State := s.setTmp { s.tmp with lo := x }
def storeHi (x : Byte) (s : State) : State := s.setTmp { s.tmp with hi := x }
def storeB0 (x : Byte) (s : State) : State := s.setTmp { s.tmp with b0 := x }
def storeB1 (x : Byte) (s : State) : State := s.setTmp { s.tmp with b1 := x }
def storeL0 (x : Byte) (s : State) : State := s.setTmp { s.tmp with l0 := x }
def storeL1 (x : Byte) (s : State) : State := s.setTmp { s.tmp with l1 := x }
def storeO0 (x : Byte) (s : State) : State := s.setTmp { s.tmp with o0 := x }
def storeO1 (x : Byte) (s : State) : State := s.setTmp { s.tmp with o1 := x }
def storeR0 (x : Byte) (s : State) : State := s.setTmp { s.tmp with r0 := x }
def storeR1 (x : Byte) (s : State) : State := s.setTmp { s.tmp with r1 := x }
def storePwLo (x : Byte) (s : State) : State := s.setTmp { s.tmp with pwLo := x }
def storePwHi (x : Byte) (s : State) : State := s.setTmp { s.tmp with pwHi := x }
def storeA (x : Byte) (s : State) : State := s.setTmp { s.tmp with a := x }
def storeCode (x : Nat) (s : State) : State := s.setTmp { s.tmp with code := x }
def storeRaw (x : Int) (s : State) : State := s.setTmp { s.tmp with raw := x }
def storeT (x : Nat) (s : State) : State := s.setTmp { s.tmp with t := x }
def storeW (x : Word16) (s : State) : State := s.setTmp { s.tmp with w := x }
def storeWidth (x : Nat) (s : State) : State := s.setTmp { s.tmp with W := x }
def storeV (x : Nat) (s : State) : State := s.setTmp { s.tmp with v := x }
def storeO (x : Int) (s : State) : State := s.setTmp { s.tmp with o := x }

end Sys2Proof.Machine
end

