-- ==== Sys2Proof/Machine/Eeprom.lean ====
section
/-! DEFINITION. The EEPROM commands RDWORD, WRWORD, LOCK, RDIMG, LOADIMG and SAVEIMG (41_eeprom R116-R121). -/

namespace Sys2Proof.Machine

def rdwordProgram (subst : Substrate) (ea : Byte) : List MicroOp :=
  .compute (prologue (eaddrOk ea) .either) ::
    (eeRead subst ea storeB0 storeB1 ++
    [act fun s => s.setHres0 ((wordOf s.tmp.b1 s.tmp.b0).setWidth 32),
     .finish])

/-- RDWORD (41_eeprom R116). -/
def execRdword (ea : Byte) (s : State) : Host.Outcome State Fault Refusal :=
  runProgram (rdwordProgram s.hcfg.subst ea) s

def wrwordProgram (ea b0 b1 : Byte) : List MicroOp :=
  .compute (prologue (eaddrOk ea) .live) ::
    (eeWrite ea (fun _ => b0) (fun _ => b1) ++ [.finish])

/-- WRWORD (41_eeprom R117). -/
def execWrword (ea b0 b1 : Byte) (s : State) : Host.Outcome State Fault Refusal :=
  runProgram (wrwordProgram ea b0 b1) s

def lockProgram : List MicroOp :=
  .compute (prologue true .live) :: (lockOps ++ [.finish])

/-- LOCK (41_eeprom R118). -/
def execLock (s : State) : Host.Outcome State Fault Refusal :=
  runProgram lockProgram s

/-- The byte index of word k: `a <- 2 * widx` (41_eeprom R119, 42_auth R132). -/
def wordAddr (k : Nat) : Byte := BitVec.ofNat 8 (2 * k)

/-- The loop variable takes the value k, and a its byte index. -/
def enterWord (k : Nat) : MicroOp := act fun s => storeA (wordAddr k) (s.setWidx (BitVec.ofNat 7 k))

/-- The loop variable once the loop is over (10_state R38: widx is 0..64). -/
def leaveLoop : MicroOp := act fun s => s.setWidx (BitVec.ofNat 7 wordCount)

/-- One round of RDIMG's loop (41_eeprom R119). -/
def rdimgWord (subst : Substrate) (k : Nat) : List MicroOp :=
  enterWord k ::
    (eeRead subst (wordAddr k) storeB0 storeB1 ++
    [act fun s => s.memWrite s.tmp.a.toNat [s.tmp.b0, s.tmp.b1],
     act fun s => s.setHres0 (hresNat (s.tmp.a.toNat + 2))])

def rdimgProgram (subst : Substrate) : List MicroOp :=
  .compute (prologue true .either) ::
    ((List.range wordCount).flatMap (rdimgWord subst) ++ [leaveLoop, .finish])

/-- RDIMG (41_eeprom R119). -/
def execRdimg (s : State) : Host.Outcome State Fault Refusal :=
  runProgram (rdimgProgram s.hcfg.subst) s

def loadimgProgram : List MicroOp :=
  [.compute (prologue true .noSubstrate),
   .fileSize,
   requireImageSize,
   .fileRead 0 imageSize,
   act fun s => s.memWrite 0 s.tmp.r,
   act fun s => s.setHres0 (hresNat imageSize),
   .finish]

/-- LOADIMG (41_eeprom R120). -/
def execLoadimg (s : State) : Host.Outcome State Fault Refusal :=
  runProgram loadimgProgram s

/-- `if exists i with V[i] == 0: raise Error(IMAGE_SIZE_MISMATCH)` (41_eeprom R121, 42_auth R132). -/
def requireComplete : MicroOp := require (fun s => s.img.complete) .imageSizeMismatch

def saveimgProgram : List MicroOp :=
  [.compute (prologue true .noSubstrate),
   requireComplete,
   .fileWriteAll (fun s => s.memRead 0 imageSize),
   act fun s => s.setHres0 (hresNat imageSize),
   .finish]

/-- SAVEIMG (41_eeprom R121). -/
def execSaveimg (s : State) : Host.Outcome State Fault Refusal :=
  runProgram saveimgProgram s

end Sys2Proof.Machine
end

