-- ==== Sys2Proof/Machine/Auth.lean ====
section
/-! DEFINITION. The password-authenticated erase and rewrite (42_auth R131-R133). -/

namespace Sys2Proof.Machine

/-- `PW <- pwHi : pwLo` (42_auth R132, step 1). -/
def capturePassword (s : State) : State := s.setPw (wordOf s.tmp.pwHi s.tmp.pwLo)

/-- Steps 1 to 5: the password word, the request for access, the submission, the status, the lock. -/
def authOps : List MicroOp :=
  eeReadLive eePassword storePwLo storePwHi ++
  [act capturePassword,
   act fun s => s.setHres1 (s.pw.setWidth 32)] ++
  waitWrite regEeControl (fun _ => codeEeAuth) ++
  [.busW regPasswordLo (fun s => s.tmp.pwLo),
   .busW regPasswordHi (fun s => s.tmp.pwHi),
   .busR regAuthStatus (fun x s => s.setAuthByte x),
   act fun s => s.setHres0 (s.authByte.setWidth 32),
   act fun s => s.setHstat (s.hstat.withAuth (authClass s.authByte))] ++
  lockOps

/-- Step 6: PWD_OK not set means no erase and no write. -/
def requirePasswordOk : MicroOp := require (fun s => s.authByte.getLsbD bitPwdOk) .authFailed

/-- One round of step 8's loop: the word at a from IMG, read at the moment of each write. -/
def rewriteWord (k : Nat) : List MicroOp :=
  enterWord k :: eeWrite (wordAddr k) (fun s => s.imgByte s.tmp.a.toNat) (fun s => s.imgByte (s.tmp.a.toNat + 1))

/-- Steps 7 and 8: the erase and the 64 words in ascending order. -/
def eraseOps : List MicroOp :=
  waitWrite regEeControl (fun _ => codeEeErase) ++ (List.range wordCount).flatMap rewriteWord

def rewriteProgram : List MicroOp :=
  [.compute (prologue true .live), requireComplete] ++ authOps ++ [requirePasswordOk] ++ eraseOps ++
    [leaveLoop, .finish]

/-- REWRITE (42_auth R132). -/
def execRewrite (s : State) : Host.Outcome State Fault Refusal :=
  runProgram rewriteProgram s

end Sys2Proof.Machine
end

