-- ==== Sys2Proof/Machine/Bus.lean ====
section
/-! DEFINITION. The register commands RDREG, WRREG, CHIPID and REBOOT (40_bus R105-R108). A program lists the
lines of the command's pseudocode, the prologue first; the meaning is one turn of it. -/

namespace Sys2Proof.Machine

def rdregProgram (reg : Byte) : List MicroOp :=
  [.compute (prologue true .live),
   .busR reg storeD,
   act fun s => s.setHres0 (s.tmp.d.setWidth 32),
   .finish]

/-- RDREG (40_bus R105). -/
def execRdreg (reg : Byte) (s : State) : Host.Outcome State Fault Refusal :=
  runProgram (rdregProgram reg) s

def wrregProgram (reg data : Byte) : List MicroOp :=
  [.compute (prologue true .live),
   .busW reg (fun _ => data),
   .finish]

/-- WRREG (40_bus R106). -/
def execWrreg (reg data : Byte) (s : State) : Host.Outcome State Fault Refusal :=
  runProgram (wrregProgram reg data) s

/-- CHIPID's comparison: a mismatch warns under FORCE and is fatal otherwise (40_bus R107). -/
def checkChipId (s : State) : Except ErrCode State :=
  if s.tmp.id = expectedChipId then .ok s
  else if s.hcfg.force then .ok (s.setHstat s.hstat.warned)
  else .error .unknownChip

def chipidProgram : List MicroOp :=
  [.compute (prologue true .live),
   .busR regChipId storeId,
   act fun s => s.setHres0 (s.tmp.id.setWidth 32),
   .compute checkChipId,
   .finish]

/-- CHIPID (40_bus R107). -/
def execChipid (s : State) : Host.Outcome State Fault Refusal :=
  runProgram chipidProgram s

def rebootProgram : List MicroOp :=
  [.compute (prologue true .live),
   .busW regReboot (fun _ => 0x01),
   .busW regReboot (fun _ => 0x00),
   .finish]

/-- REBOOT (40_bus R108). -/
def execReboot (s : State) : Host.Outcome State Fault Refusal :=
  runProgram rebootProgram s

end Sys2Proof.Machine
end

