-- ==== Sys2Proof/Machine/Control.lean ====
section
/-! DEFINITION. The chip-side control codes (30_encoding R91): each is what OZEC does with it, one complete
transaction `BusW(0x5F, code)`, with its effect on PHASE and LASTMODE (10_state R29, R30; log entry 13). -/

namespace Sys2Proof.Machine

/-- EE_LOCK, 0x00: "release/lock access". -/
def execEeLock (s : State) : Host.Outcome State Fault Refusal := .next (modeWrite codeEeLock s)

/-- EE_AUTH, 0x50: "request privileged access". -/
def execEeAuth (s : State) : Host.Outcome State Fault Refusal := .next (modeWrite codeEeAuth s)

/-- EE_WRITE, 0x52: "enable write mode". -/
def execEeWrite (s : State) : Host.Outcome State Fault Refusal := .next (modeWrite codeEeWrite s)

/-- EE_ERASE, 0x53: "erase whole EEPROM". -/
def execEeErase (s : State) : Host.Outcome State Fault Refusal := .next (modeWrite codeEeErase s)

/-- EE_READ, 0x55: "enable EEPROM access, word-read mode". -/
def execEeRead (s : State) : Host.Outcome State Fault Refusal := .next (modeWrite codeEeRead s)

end Sys2Proof.Machine
end

