-- ==== Sys2Proof/Machine/Measure.lean ====
section
/-! DEFINITION. The measurement decoder: CELLV, CURR, RSENSE, LIMIT, THRESH, ADC2MV, V2ADC, SETRS and SETVL
(43_measure R143-R152). -/

namespace Sys2Proof.Machine

def cellvProgram (sel : Byte) : List MicroOp :=
  [.compute (prologue (cellOk sel) .live),
   .busR (cellLoReg sel) storeLo,
   .busR (cellHiReg sel) storeHi,
   act fun s => storeRaw (cellRaw s.tmp.hi s.tmp.lo) s,
   act fun s => s.setHres1 (hresInt s.tmp.raw),
   act fun s => s.setHres0 (hresNat (adc2mv10 s.tmp.raw.toNat)),
   .finish]

/-- CELLV (43_measure R143). -/
def execCellv (sel : Byte) (s : State) : Host.Outcome State Fault Refusal :=
  runProgram (cellvProgram sel) s

/-- CURR is live-only, so its EeRead is the live device's (43_measure R144). -/
def currProgram : List MicroOp :=
  [.compute (prologue true .live),
   .busR regCurrentLo storeLo,
   .busR regCurrentHi storeHi,
   act fun s => storeRaw (wordOf s.tmp.hi s.tmp.lo).toInt s] ++
  eeReadLive eeSenseResistor storeB0 storeB1 ++
  [act fun s => storeT (rsEff s.tmp.b0) s,
   act fun s => s.setHres1 ((wordOf s.tmp.hi s.tmp.lo).signExtend 32),
   act fun s => s.setHres0 (hresInt (currentResult s.tmp.raw s.tmp.t)),
   .finish]

/-- CURR (43_measure R144). -/
def execCurr (s : State) : Host.Outcome State Fault Refusal :=
  runProgram currProgram s

def rsenseProgram (subst : Substrate) : List MicroOp :=
  .compute (prologue true .either) ::
    (eeRead subst eeSenseResistor storeB0 storeB1 ++
    [act fun s => s.setHres1 (s.tmp.b0.setWidth 32),
     act fun s => s.setHres0 (hresNat (rsEff s.tmp.b0)),
     .finish])

/-- RSENSE (43_measure R145). -/
def execRsense (s : State) : Host.Outcome State Fault Refusal :=
  runProgram (rsenseProgram s.hcfg.subst) s

def limitProgram (subst : Substrate) (sel : Byte) (lsb wm1 : BitVec 4) : List MicroOp :=
  .compute (prologue (limitOk sel lsb wm1) .either) ::
    act (storeWidth (fieldWidth wm1)) ::
    (eeRead subst eeLimitWord storeL0 storeL1 ++
    eeRead subst (offsetAddr sel) storeO0 storeO1 ++
    eeRead subst eeSenseResistor storeR0 storeR1 ++
    [act fun s => storeV (fieldNat (wordOf s.tmp.l1 s.tmp.l0) lsb.toNat s.tmp.W) s,
     act fun s => storeO (nib s.tmp.o0 s.hcfg.nibmode) s,
     act fun s => storeT (rsEff s.tmp.r0) s,
     act fun s => s.setHres0 (hresInt (limitResult s.tmp.v s.tmp.o s.tmp.t)),
     act fun s => s.setHres1 (hresInt (limitResult (2 ^ s.tmp.W - 1) s.tmp.o s.tmp.t)),
     .finish])

/-- LIMIT (43_measure R147). -/
def execLimit (sel : Byte) (lsb wm1 : BitVec 4) (s : State) : Host.Outcome State Fault Refusal :=
  runProgram (limitProgram s.hcfg.subst sel lsb wm1) s

def threshProgram (subst : Substrate) (sel : Byte) : List MicroOp :=
  .compute (prologue (threshOk sel) .either) ::
    act (storeA (threshAddr sel)) ::
    (eeRead subst (threshAddr sel) storeB0 storeB1 ++
    [act fun s => storeCode (threshCode s.tmp.b1 s.tmp.b0) s,
     act fun s => s.setHres1 (hresNat s.tmp.code),
     act fun s => s.setHres0 (hresNat (adc2mv10 s.tmp.code)),
     .finish])

/-- THRESH (43_measure R148). -/
def execThresh (sel : Byte) (s : State) : Host.Outcome State Fault Refusal :=
  runProgram (threshProgram s.hcfg.subst sel) s

def adc2mvProgram (code : BitVec 13) : List MicroOp :=
  [.compute (prologue true .noSubstrate),
   act fun s => s.setHres1 (code.setWidth 32),
   act fun s => s.setHres0 (hresNat (adc2mv10 code.toNat)),
   .finish]

/-- ADC2MV (43_measure R149). -/
def execAdc2mv (code : BitVec 13) (s : State) : Host.Outcome State Fault Refusal :=
  runProgram (adc2mvProgram code) s

def v2adcProgram (x : BitVec 24) : List MicroOp :=
  [.compute (prologue (voltageOk x.toNat) .noSubstrate),
   act (storeCode (v2adc x.toNat)),
   act fun s => s.setHres0 (hresNat s.tmp.code),
   act fun s => s.setHres1 (hresNat (adc2mv10 s.tmp.code)),
   .finish]

/-- V2ADC (43_measure R150). -/
def execV2adc (x : BitVec 24) (s : State) : Host.Outcome State Fault Refusal :=
  runProgram (v2adcProgram x) s

def setrsProgram (t : BitVec 16) : List MicroOp :=
  [.compute (prologue (resistorOk t) .noSubstrate),
   act fun s => s.memWrite eeSenseResistor.toNat [t.extractLsb' 0 8],
   act fun s => s.setHres0 (t.setWidth 32),
   .finish]

/-- SETRS (43_measure R151). -/
def execSetrs (t : BitVec 16) (s : State) : Host.Outcome State Fault Refusal :=
  runProgram (setrsProgram t) s

def setvlProgram (sel : BitVec 2) (val : BitVec 20) : List MicroOp :=
  [.compute (prologue (voltageOk val.toNat) .noSubstrate),
   act (storeCode (v2adc val.toNat)),
   act (storeA (threshAddr (sel.setWidth 8))),
   require (fun s => s.img.valid s.tmp.a.toNat) .imageSizeMismatch,
   act fun s => storeLo (setvlLo (s.imgByte s.tmp.a.toNat) s.tmp.code) s,
   act fun s => storeHi (setvlHi s.tmp.code) s,
   act fun s => s.memWrite s.tmp.a.toNat [s.tmp.lo, s.tmp.hi],
   act fun s => s.setHres0 (hresNat s.tmp.code),
   .finish]

/-- SETVL (43_measure R152). -/
def execSetvl (sel : BitVec 2) (val : BitVec 20) (s : State) : Host.Outcome State Fault Refusal :=
  runProgram (setvlProgram sel val) s

end Sys2Proof.Machine
end

