-- ==== Sys2Proof/Machine/Status.lean ====
section
/-! DEFINITION. The status decoder: DECAUTH (45_status R166-R168). -/

namespace Sys2Proof.Machine

def decauthProgram (x : Byte) : List MicroOp :=
  [.compute (prologue true .noSubstrate),
   act fun s => s.setHres0 ((x &&& tagMask).setWidth 32),
   act fun s => s.setHres1 ((authClass x).toBits.setWidth 32),
   .finish]

/-- DECAUTH (45_status R167). -/
def execDecauth (x : Byte) (s : State) : Host.Outcome State Fault Refusal :=
  runProgram (decauthProgram x) s

end Sys2Proof.Machine
end

