-- ==== Sys2Proof/Machine/Unpack.lean ====
section
/-! DEFINITION. The bit-field unpacker: UNPACK and SEXT4 (44_unpack R162, R163). -/

namespace Sys2Proof.Machine

def unpackProgram (subst : Substrate) (ea : Byte) (lsb wm1 : BitVec 4) (sgn : Bool) : List MicroOp :=
  .compute (prologue (eaddrOk ea && fieldOk lsb wm1) .either) ::
    (eeRead subst ea storeB0 storeB1 ++
    [act fun s => storeW (wordOf s.tmp.b1 s.tmp.b0) s,
     act fun s => s.setHres1 (s.tmp.w.setWidth 32),
     act fun s => s.setHres0 (field s.tmp.w lsb.toNat (fieldWidth wm1) sgn),
     .finish])

/-- UNPACK (44_unpack R162). -/
def execUnpack (ea : Byte) (lsb wm1 : BitVec 4) (sgn : Bool) (s : State) : Host.Outcome State Fault Refusal :=
  runProgram (unpackProgram s.hcfg.subst ea lsb wm1 sgn) s

def sext4Program (b : Byte) : List MicroOp :=
  [.compute (prologue true .noSubstrate),
   act fun s => s.setHres0 (hresInt (nib b s.hcfg.nibmode)),
   act fun s => s.setHres1 (b.setWidth 32),
   .finish]

/-- SEXT4 (44_unpack R163). -/
def execSext4 (b : Byte) (s : State) : Host.Outcome State Fault Refusal :=
  runProgram (sext4Program b) s

end Sys2Proof.Machine
end

