-- ==== Sys2Proof/Machine/Dispatch.lean ====
section
/-! DEFINITION. The meaning of every instruction, one arm per constructor of Instr. -/

namespace Sys2Proof.Machine

def exec (i : Instr) (s : State) : Host.Outcome State Fault Refusal :=
  match i with
  | .rdreg reg => Sys2Proof.Machine.execRdreg reg s
  | .wrreg reg data => Sys2Proof.Machine.execWrreg reg data s
  | .chipid => Sys2Proof.Machine.execChipid s
  | .reboot => Sys2Proof.Machine.execReboot s
  | .rdword ea => Sys2Proof.Machine.execRdword ea s
  | .wrword ea b0 b1 => Sys2Proof.Machine.execWrword ea b0 b1 s
  | .lock => Sys2Proof.Machine.execLock s
  | .rdimg => Sys2Proof.Machine.execRdimg s
  | .rewrite => Sys2Proof.Machine.execRewrite s
  | .loadimg => Sys2Proof.Machine.execLoadimg s
  | .saveimg => Sys2Proof.Machine.execSaveimg s
  | .cellv sel => Sys2Proof.Machine.execCellv sel s
  | .curr => Sys2Proof.Machine.execCurr s
  | .rsense => Sys2Proof.Machine.execRsense s
  | .limit sel lsb wm1 => Sys2Proof.Machine.execLimit sel lsb wm1 s
  | .thresh sel => Sys2Proof.Machine.execThresh sel s
  | .adc2mv code => Sys2Proof.Machine.execAdc2mv code s
  | .v2adc x => Sys2Proof.Machine.execV2adc x s
  | .setrs t => Sys2Proof.Machine.execSetrs t s
  | .setvl sel val => Sys2Proof.Machine.execSetvl sel val s
  | .unpack ea lsb wm1 sgn => Sys2Proof.Machine.execUnpack ea lsb wm1 sgn s
  | .sext4 b => Sys2Proof.Machine.execSext4 b s
  | .decauth x => Sys2Proof.Machine.execDecauth x s
  | .eeLock => Sys2Proof.Machine.execEeLock s
  | .eeAuth => Sys2Proof.Machine.execEeAuth s
  | .eeWrite => Sys2Proof.Machine.execEeWrite s
  | .eeErase => Sys2Proof.Machine.execEeErase s
  | .eeRead => Sys2Proof.Machine.execEeRead s

end Sys2Proof.Machine
end

