-- ==== Sys2Proof/Machine/HostPort.lean ====
section
/-! DEFINITION. The host side: reads and writes of the host registers (10_state R18-R37), the BUS_READY input
(40_bus R101) and reset (70_reset_and_hazards R191, R193). -/

namespace Sys2Proof.Machine

/-! Host register offsets (10_state R18). -/

abbrev offHcmd   : Nat := 0x00
abbrev offHstat  : Nat := 0x04
abbrev offHres0  : Nat := 0x08
abbrev offHres1  : Nat := 0x0C
abbrev offHcfg   : Nat := 0x10
abbrev offHpoll  : Nat := 0x14
abbrev offHimga  : Nat := 0x18
abbrev offHimgd  : Nat := 0x1C
abbrev offHimgv0 : Nat := 0x20
abbrev offHimgv1 : Nat := 0x24
abbrev offHimgv2 : Nat := 0x28
abbrev offHimgv3 : Nat := 0x2C

/-- What a host read of an offset returns. An offset outside the map reads 0 (10_state R19); a byte of IMG whose
valid bit is 0 is a free draw (R37). -/
def State.hostValue (s : State) (off : Nat) : Word32 :=
  if off = offHcmd then s.hcmd
  else if off = offHstat then s.hstat.word
  else if off = offHres0 then s.hres0
  else if off = offHres1 then s.hres1
  else if off = offHcfg then s.hcfg.word
  else if off = offHpoll then s.hpoll
  else if off = offHimga then s.himga.setWidth 32
  else if off = offHimgd then ((s.img.read s.himga.toNat).getD (Config.freeByte s.draws)).setWidth 32
  else if off = offHimgv0 then s.validWord 0
  else if off = offHimgv1 then s.validWord 1
  else if off = offHimgv2 then s.validWord 2
  else if off = offHimgv3 then s.validWord 3
  else 0

/-- What a host read does besides returning: HIMGD advances HIMGA modulo 128, except while BUSY (10_state R34, R37;
20_memory R71), and a free draw is used up. -/
def State.afterHostRead (s : State) (off : Nat) : State :=
  if off = offHimgd then
    let drawn := if s.img.valid s.himga.toNat then s else s.setDraws (s.draws + 1)
    if s.hstat.busy then drawn else drawn.setHimga (drawn.himga + 1)
  else s

/-- A host read. -/
def State.hostRead (s : State) (off : Nat) : State :=
  (s.afterHostRead off).setReads (s.reads ++ [s.hostValue off])

/-- The registers whose writes are dropped while BUSY (10_state R34). -/
def guardedOffset (off : Nat) : Bool :=
  off == offHcmd || off == offHcfg || off == offHpoll || off == offHimga || off == offHimgd

/-- A host write (10_state R19, R21, R22, R33-R37). -/
def State.hostWrite (s : State) (off : Nat) (w : Word32) : State :=
  if guardedOffset off && s.hstat.busy then s.setHstat s.hstat.overrun
  else if off = offHcmd then s.accept w
  else if off = offHstat then s.setHstat (s.hstat.cleared w)
  else if off = offHcfg then s.setHcfg (Hcfg.ofWord w)
  else if off = offHpoll then s.setHpoll w
  else if off = offHimga then s.setHimga (w.extractLsb' 0 7)
  else if off = offHimgd then
    (s.memWrite s.himga.toNat [w.extractLsb' 0 8]).setHimga (s.himga + 1)
  else s

/-- The offset of a host bus address in the register block, none below the block (20_memory R73). -/
def offsetOf (addr : Nat) : Option Nat :=
  if Config.ozecBase ≤ addr then some (addr - Config.ozecBase) else none

/-- OZEC's reset: every register and latch of OZEC, and nothing of its environment (70_reset_and_hazards R191, R193). -/
def State.hwReset (s : State) : State :=
  { State.reset with
    busReady := s.busReady
    chipIn   := s.chipIn
    fileIn   := s.fileIn
    draws    := s.draws
    host     := s.host
    trace    := s.trace
    reads    := s.reads }

/-- An HCMD write and a control code as withFetchWord places them: see Machine/Step.lean. -/
def State.placeCommand (s : State) (w : Word32) : State := (s.accept w).setHost []

/-- WRREG 0x5F with this code accepted and its prologue passed, so that the next micro-operation is
`BusW(0x5F, code)`, and one turn for it. -/
def State.placeControl (s : State) (code : Byte) : State :=
  ((s.accept (0x02#8 ++ regEeControl ++ code ++ 0#8)).setPos 1).setHost [.pass]

end Sys2Proof.Machine
end

