-- ==== Sys2Proof/Machine/Sequencer.lean ====
section
/-! DEFINITION. Who moves: the sequencer's turn and the host side's acts (00_scope R7, 20_memory R76). -/

namespace Sys2Proof.Machine

/-- The sequencer's turn: while BUSY it executes the command CUR names; while idle it does nothing (10_state R23). -/
def sequencerTurn (s : State) : Host.Outcome State Fault Refusal :=
  if s.hstat.busy then
    match s.fetch with
    | .ok i => exec i s
    | .error _ => runProgram illegalProgram s
  else .next s.endTurn

/-- The head of the host side's list acts; the rest is `rest`. -/
def hostTurn (act : HostAct) (rest : List HostAct) (s : State) : Host.Outcome State Fault Refusal :=
  match act with
  | .pass => sequencerTurn s
  | .read off => .next ((s.setHost rest).hostRead off)
  | .write off w => .next ((s.setHost rest).hostWrite off w)
  | .readAt addr =>
    match offsetOf addr with
    | some off => .next ((s.setHost rest).hostRead off)
    | none => .next (s.setHost rest)
  | .writeAt addr w =>
    match offsetOf addr with
    | some off => .next ((s.setHost rest).hostWrite off w)
    | none => .next (s.setHost rest)
  | .statWith w => sequencerTurn ((s.setHost (.pass :: rest)).hostWrite offHstat w)
  | .busReady b => .next ((s.setHost rest).setBusReady b)
  | .reset => .next (s.setHost rest).hwReset

end Sys2Proof.Machine
end

