-- ==== Sys2Proof/Machine/Step.lean ====
section
/-! DEFINITION. One step of the machine, and where an instruction is placed so that the next step runs it. -/

namespace Sys2Proof.Machine

/-- The next thing that happens: the host side's first listed act, or the sequencer's turn when it lists none. -/
def step (s : State) : Host.Outcome State Fault Refusal :=
  match s.host with
  | [] => sequencerTurn s
  | act :: rest => hostTurn act rest s

/-- s with an opcode-table row's bits placed so that the very next step runs it: a command word as the host's
write of HCMD leaves it (10_state R21), a control code as the next micro-operation of WRREG 0x5F (log entry 14). -/
def State.withFetchWord (s : State) (nbits w : Nat) : State :=
  if nbits = 8 then s.placeControl (BitVec.ofNat 8 w) else s.placeCommand (BitVec.ofNat 32 w)

end Sys2Proof.Machine
end

