-- ==== Sys2Proof/Machine/Assembler.lean ====
section
/-! DEFINITION. The assembler syntax and the pseudo-instructions (30_encoding R92, R93): a line of text to the
command words it stands for. An operand that does not fit its field is refused; a value outside the command's
domain is not. -/

namespace Sys2Proof.Machine

/-- Why a line is refused. -/
inductive AsmError where
  | unknownMnemonic
  | badOperand
deriving DecidableEq, Repr

/-- The digit a character stands for, hexadecimal letters included. -/
def asmDigit (c : Char) : Option Nat :=
  if '0' ≤ c ∧ c ≤ '9' then some (c.toNat - '0'.toNat)
  else if 'a' ≤ c ∧ c ≤ 'f' then some (c.toNat - 'a'.toNat + 10)
  else if 'A' ≤ c ∧ c ≤ 'F' then some (c.toNat - 'A'.toNat + 10)
  else none

/-- Digits in a base, the most significant first. -/
def asmDigits (base : Nat) : List Char → Nat → Option Nat
  | [], acc => some acc
  | c :: rest, acc =>
    match asmDigit c with
    | some d => if d < base then asmDigits base rest (acc * base + d) else none
    | none => none

/-- A number, decimal or `0x` hexadecimal. -/
def asmNumber : List Char → Option Nat
  | [] => none
  | '0' :: 'x' :: c :: rest => asmDigits 16 (c :: rest) 0
  | cs => asmDigits 10 cs 0

/-- Split at a character. -/
def asmSplit (sep : Char) : List Char → List (List Char)
  | [] => [[]]
  | c :: rest =>
    if c = sep then [] :: asmSplit sep rest
    else
      match asmSplit sep rest with
      | [] => [[c]]
      | word :: words => (c :: word) :: words

/-- The mnemonic of a line, up to the first space. -/
def asmMnemonic (line : List Char) : List Char := line.takeWhile (· ≠ ' ')

/-- The operands of a line, separated by commas, spaces dropped. -/
def asmOperands (line : List Char) : List (List Char) :=
  let rest := (line.dropWhile (· ≠ ' ')).filter (· ≠ ' ')
  if rest.isEmpty then [] else asmSplit ',' rest

/-- A number that asmBits n bits. -/
def asmBits (n : Nat) (cs : List Char) : Option (BitVec n) :=
  match asmNumber cs with
  | some k => if k < 2 ^ n then some (BitVec.ofNat n k) else none
  | none => none

/-- THRESH's and SETVL's selector names. -/
def asmSelector (cs : List Char) : List Char :=
  if cs = "ovtrip".toList then ['0']
  else if cs = "ovrel".toList then ['1']
  else if cs = "uvtrip".toList then ['2']
  else if cs = "uvrel".toList then ['3']
  else cs

/-- LIMIT's channel, `chg` or `dsg`. -/
def asmChannel (cs : List Char) : Option Byte :=
  if cs = "chg".toList then some 0 else if cs = "dsg".toList then some 1 else none

/-- A field width 1..16, encoded as WM1. -/
def asmWidth (cs : List Char) : Option (BitVec 4) :=
  match asmNumber cs with
  | some k => if 1 ≤ k ∧ k ≤ 16 then some (BitVec.ofNat 4 (k - 1)) else none
  | none => none

/-- UNPACK's sign, `s` or `u`. -/
def asmSign (cs : List Char) : Option Bool :=
  if cs = ['s'] then some true else if cs = ['u'] then some false else none

/-- The command a mnemonic with operands stands for; none if an operand is wrong. -/
def asmCommand (m : List Char) (ops : List (List Char)) : Option (Option Instr) :=
  if m = "RDREG".toList then some <| match ops with
    | [r] => do return .rdreg (← asmBits 8 r)
    | _ => none
  else if m = "WRREG".toList then some <| match ops with
    | [r, d] => do return .wrreg (← asmBits 8 r) (← asmBits 8 d)
    | _ => none
  else if m = "CHIPID".toList then some (if ops = [] then some .chipid else none)
  else if m = "REBOOT".toList then some (if ops = [] then some .reboot else none)
  else if m = "RDWORD".toList then some <| match ops with
    | [a] => do return .rdword (← asmBits 8 a)
    | _ => none
  else if m = "WRWORD".toList then some <| match ops with
    | [a, x, y] => do return .wrword (← asmBits 8 a) (← asmBits 8 x) (← asmBits 8 y)
    | _ => none
  else if m = "LOCK".toList then some (if ops = [] then some .lock else none)
  else if m = "RDIMG".toList then some (if ops = [] then some .rdimg else none)
  else if m = "REWRITE".toList then some (if ops = [] then some .rewrite else none)
  else if m = "LOADIMG".toList then some (if ops = [] then some .loadimg else none)
  else if m = "SAVEIMG".toList then some (if ops = [] then some .saveimg else none)
  else if m = "CELLV".toList then some <| match ops with
    | [c] => do return .cellv (← asmBits 8 c)
    | _ => none
  else if m = "CURR".toList then some (if ops = [] then some .curr else none)
  else if m = "RSENSE".toList then some (if ops = [] then some .rsense else none)
  else if m = "LIMIT".toList then some <| match ops with
    | [c, l, w] => do return .limit (← asmChannel c) (← asmBits 4 l) (← asmWidth w)
    | _ => none
  else if m = "THRESH".toList then some <| match ops with
    | [x] => do return .thresh (← asmBits 8 (asmSelector x))
    | _ => none
  else if m = "ADC2MV".toList then some <| match ops with
    | [x] => do return .adc2mv (← asmBits 13 x)
    | _ => none
  else if m = "V2ADC".toList then some <| match ops with
    | [x] => do return .v2adc (← asmBits 24 x)
    | _ => none
  else if m = "SETRS".toList then some <| match ops with
    | [x] => do return .setrs (← asmBits 16 x)
    | _ => none
  else if m = "SETVL".toList then some <| match ops with
    | [x, v] => do return .setvl (← asmBits 2 (asmSelector x)) (← asmBits 20 v)
    | _ => none
  else if m = "UNPACK".toList then some <| match ops with
    | [a, l, w, g] => do return .unpack (← asmBits 8 a) (← asmBits 4 l) (← asmWidth w) (← asmSign g)
    | _ => none
  else if m = "SEXT4".toList then some <| match ops with
    | [x] => do return .sext4 (← asmBits 8 x)
    | _ => none
  else if m = "DECAUTH".toList then some <| match ops with
    | [x] => do return .decauth (← asmBits 8 x)
    | _ => none
  else none

/-- The commands of a pseudo-instruction (30_encoding R93). -/
def asmPseudo (m : List Char) : Option (List Instr) :=
  if m = "CELLCOUNT".toList then some [.unpack 0x26 0 3 false]
  else if m = "IDLEBLEED".toList then some [.unpack 0x2C 14 0 false]
  else if m = "CHGOFF".toList then some [.unpack 0x02 4 3 true]
  else if m = "DSGOFF".toList then some [.unpack 0x04 4 3 true]
  else if m = "PASSWORD".toList then some [.rdword 0x7A]
  else if m = "OVTRIP".toList then some [.thresh 0]
  else if m = "OVREL".toList then some [.thresh 1]
  else if m = "UVTRIP".toList then some [.thresh 2]
  else if m = "UVREL".toList then some [.thresh 3]
  else if m = "RDFILE".toList then some [.loadimg]
  else if m = "DUMP".toList then some [.rdimg, .saveimg]
  else none

/-- The codes a line assembles to, or why it is refused. -/
def assemble (line : List Char) : Except AsmError (List Code) :=
  match asmPseudo (asmMnemonic line) with
  | some is => if asmOperands line = [] then .ok (is.map encode) else .error .badOperand
  | none =>
    match asmCommand (asmMnemonic line) (asmOperands line) with
    | some (some i) => .ok [encode i]
    | some none => .error .badOperand
    | none => .error .unknownMnemonic

end Sys2Proof.Machine
end

