-- ==== Sys2Proof/Machine/Program.lean ====
section
/-! DEFINITION. The lines of each instruction as one function of it, and what each needs (30_encoding R87), so that
statements over all instructions can name the line the sequencer is at (10_state R38). -/

namespace Sys2Proof.Machine

/-- The lines of an instruction on a substrate. -/
def linesOf (i : Instr) (subst : Substrate) : List MicroOp :=
  match i with
  | .rdreg reg => rdregProgram reg
  | .wrreg reg data => wrregProgram reg data
  | .chipid => chipidProgram
  | .reboot => rebootProgram
  | .rdword ea => rdwordProgram subst ea
  | .wrword ea b0 b1 => wrwordProgram ea b0 b1
  | .lock => lockProgram
  | .rdimg => rdimgProgram subst
  | .rewrite => rewriteProgram
  | .loadimg => loadimgProgram
  | .saveimg => saveimgProgram
  | .cellv sel => cellvProgram sel
  | .curr => currProgram
  | .rsense => rsenseProgram subst
  | .limit sel lsb wm1 => limitProgram subst sel lsb wm1
  | .thresh sel => threshProgram subst sel
  | .adc2mv code => adc2mvProgram code
  | .v2adc x => v2adcProgram x
  | .setrs t => setrsProgram t
  | .setvl sel val => setvlProgram sel val
  | .unpack ea lsb wm1 sgn => unpackProgram subst ea lsb wm1 sgn
  | .sext4 b => sext4Program b
  | .decauth x => decauthProgram x
  | .eeLock => [.busW regEeControl fun _ => codeEeLock]
  | .eeAuth => [.busW regEeControl fun _ => codeEeAuth]
  | .eeWrite => [.busW regEeControl fun _ => codeEeWrite]
  | .eeErase => [.busW regEeControl fun _ => codeEeErase]
  | .eeRead => [.busW regEeControl fun _ => codeEeRead]

/-- The lines of the command CUR names; an illegal word's if it names none (30_encoding R89). -/
def State.lines (s : State) : List MicroOp :=
  match s.fetch with
  | .ok i => linesOf i s.hcfg.subst
  | .error _ => illegalProgram

/-- The row is one of the five control codes, not a command. -/
def isControl : Instr → Bool
  | .eeLock | .eeAuth | .eeWrite | .eeErase | .eeRead => true
  | _ => false

/-- The substrate column of 30_encoding R87. A control code is issued only to the live device. -/
def needOf : Instr → Need
  | .rdreg _ | .wrreg _ _ | .chipid | .reboot | .wrword _ _ _ | .lock | .rewrite | .cellv _ | .curr => .live
  | .rdword _ | .rdimg | .rsense | .limit _ _ _ | .thresh _ | .unpack _ _ _ _ => .either
  | .loadimg | .saveimg | .adc2mv _ | .v2adc _ | .setrs _ | .setvl _ _ | .sext4 _ | .decauth _ => .noSubstrate
  | .eeLock | .eeAuth | .eeWrite | .eeErase | .eeRead => .live

end Sys2Proof.Machine
end

