-- ==== Sys2Proof/Machine/Transport.lean ====
section
/-! DEFINITION. The transport primitives OZEC's bus master port drives for each request (40_bus R101-R104). -/

namespace Sys2Proof.Machine

/-- A primitive of the transport (40_bus R101). -/
inductive Primitive where
  | start
  | stop
  | write (bytes : List Byte)
  | read (n : Nat)
  | getAck
  | sendNack
deriving DecidableEq, Repr

/-- The address byte, `DEVADDR << 1 | rw`; `true` is the read direction (40_bus R102). -/
def addressByte (dev : BitVec 7) (rw : Bool) : Byte := dev ++ BitVec.ofBool rw

/-- The primitives of one request, in order: a register read's whole framing is issued whatever the acknowledges
say (40_bus R103), a register write asks for none (R104), a file request uses no transport. -/
def Request.primitives : Request → List Primitive
  | .busR dev reg =>
    [.start, .write [addressByte dev false, reg], .getAck,
     .start, .write [addressByte dev true], .getAck,
     .read 1, .sendNack, .read 1, .sendNack, .stop]
  | .busW dev reg v => [.start, .write [addressByte dev false, reg, v], .stop]
  | .fileSize => []
  | .fileRead _ _ => []
  | .fileWriteAll _ => []

/-- Everything the bus master port has driven, in order. -/
def State.busPort (s : State) : List Primitive := s.trace.flatMap Request.primitives

/-- The request is a bus transaction. -/
def Request.onBus : Request → Bool
  | .busR _ _ => true
  | .busW _ _ _ => true
  | .fileSize => false
  | .fileRead _ _ => false
  | .fileWriteAll _ => false

end Sys2Proof.Machine
end

