-- ==== Sys2Proof/WellFormed.lean ====
section
/-! DEFINITION. Which instructions are well formed. The operand fields have their widths by type, so the one
check left is the operand's domain (30_encoding R90). An ill-formed command is still legal: it decodes, and
completes with VALIDATION_ERROR (60_exceptions R171). -/

namespace Sys2Proof

open Machine

/-- The operands lie in the command's domain (30_encoding R90). -/
def Instr.wellFormed : Instr → Bool
  | .rdreg _ => true
  | .wrreg _ _ => true
  | .chipid => true
  | .reboot => true
  | .rdword ea => eaddrOk ea
  | .wrword ea _ _ => eaddrOk ea
  | .lock => true
  | .rdimg => true
  | .rewrite => true
  | .loadimg => true
  | .saveimg => true
  | .cellv sel => cellOk sel
  | .curr => true
  | .rsense => true
  | .limit sel lsb wm1 => limitOk sel lsb wm1
  | .thresh sel => threshOk sel
  | .adc2mv _ => true
  | .v2adc x => voltageOk x.toNat
  | .setrs t => resistorOk t
  | .setvl _ val => voltageOk val.toNat
  | .unpack ea lsb wm1 _ => eaddrOk ea && fieldOk lsb wm1
  | .sext4 _ => true
  | .decauth _ => true
  | .eeLock => true
  | .eeAuth => true
  | .eeWrite => true
  | .eeErase => true
  | .eeRead => true

end Sys2Proof
end

