-- ==== Sys2Proof/Safety.lean ====
section
/-! DEFINITION. The terms the claims use: where a command can run to its end in one turn, what the chip and the
file port answer to it, what OZEC requests, and the invariant of the machine. -/

namespace Sys2Proof.Machine

/-! ### Where a command starts -/

/-- The sequencer stands before the first line, and the host side lists nothing. -/
abbrev State.atStart (s : State) : Prop := s.pos = 0 ∧ s.host = []

/-- The same, on a ready live device (60_exceptions R171, checks 3 and 4 pass). -/
abbrev State.atStartLive (s : State) : Prop :=
  s.atStart ∧ s.hcfg.subst = .liveDevice ∧ s.busReady = true

/-- The same, on the file substrate. -/
abbrev State.atStartFile (s : State) : Prop := s.atStart ∧ s.hcfg.subst = .fileImage

/-! ### Answers -/

/-- A poll that reads not-busy (41_eeprom R112). -/
abbrev quiet (a : BusAnswer) : Prop := answered a = true ∧ a.data.getLsbD bitBusy = false

/-- A poll that reads busy. -/
abbrev busyPoll (a : BusAnswer) : Prop := answered a = true ∧ a.data.getLsbD bitBusy = true

/-- The chip's answers to one EeRead whose polls all succeed at once (41_eeprom R114). -/
structure WordAnswers where
  p1 : BusAnswer
  p2 : BusAnswer
  p3 : BusAnswer
  hi : BusAnswer
  p4 : BusAnswer
  lo : BusAnswer
  p5 : BusAnswer
deriving DecidableEq, Repr

def WordAnswers.list (w : WordAnswers) : List BusAnswer := [w.p1, w.p2, w.p3, w.hi, w.p4, w.lo, w.p5]

abbrev WordAnswers.good (w : WordAnswers) : Prop :=
  quiet w.p1 ∧ quiet w.p2 ∧ quiet w.p3 ∧ answered w.hi = true ∧ quiet w.p4 ∧ answered w.lo = true ∧ quiet w.p5

/-- The chip's answers to the five polls of one EeWrite, each not-busy at once (41_eeprom R115). -/
structure PollAnswers where
  p1 : BusAnswer
  p2 : BusAnswer
  p3 : BusAnswer
  p4 : BusAnswer
  p5 : BusAnswer
deriving DecidableEq, Repr

def PollAnswers.list (p : PollAnswers) : List BusAnswer := [p.p1, p.p2, p.p3, p.p4, p.p5]

abbrev PollAnswers.good (p : PollAnswers) : Prop :=
  quiet p.p1 ∧ quiet p.p2 ∧ quiet p.p3 ∧ quiet p.p4 ∧ quiet p.p5

/-- The file port's answers to one file-substrate EeRead that succeeds (41_eeprom R114). -/
structure FileWord where
  size : FileAnswer
  data : FileAnswer
deriving DecidableEq, Repr

def FileWord.list (f : FileWord) : List FileAnswer := [f.size, f.data]

abbrev FileWord.good (f : FileWord) : Prop :=
  f.size.ioerr = false ∧ f.size.size = imageSize ∧ f.data.ioerr = false

/-- The two bytes FileRead(a, 2) returns: r[0] and r[1]. -/
def FileWord.b0 (f : FileWord) : Byte := f.data.data.getD 0 0
def FileWord.b1 (f : FileWord) : Byte := f.data.data.getD 1 0

/-! ### Requests -/

/-- One poll (41_eeprom R112). -/
def pollReq (dev : BitVec 7) : Request := .busR dev regEeControl

/-- The ten transactions of EeRead with immediate polls (41_eeprom R114, 95 S4). -/
def eeReadReqs (dev : BitVec 7) (a : Byte) : List Request :=
  [pollReq dev, .busW dev regEeAddr a, pollReq dev, .busW dev regEeControl codeEeRead,
   pollReq dev, .busR dev regEeDataHi, pollReq dev, .busR dev regEeDataLo,
   pollReq dev, .busW dev regEeControl codeEeLock]

/-- The ten transactions of EeWrite with immediate polls (41_eeprom R115, 95 S5). -/
def eeWriteReqs (dev : BitVec 7) (a b0 b1 : Byte) : List Request :=
  [pollReq dev, .busW dev regEeControl codeEeWrite, pollReq dev, .busW dev regEeAddr a,
   pollReq dev, .busW dev regEeDataHi b1, pollReq dev, .busW dev regEeDataLo b0,
   pollReq dev, .busW dev regEeControl codeEeLock]

/-- The requests of a file-substrate EeRead (41_eeprom R114). -/
def eeFileReqs (a : Byte) : List Request := [.fileSize, .fileRead a.toNat 2]

/-- The transactions of REWRITE up to and including step 5, with immediate polls (42_auth R132, 95 Q3). -/
def authReqs (dev : BitVec 7) (lo hi : Byte) : List Request :=
  eeReadReqs dev eePassword ++
  [pollReq dev, .busW dev regEeControl codeEeAuth, .busW dev regPasswordLo lo, .busW dev regPasswordHi hi,
   .busR dev regAuthStatus, pollReq dev, .busW dev regEeControl codeEeLock]

/-- The transactions of steps 7 and 8, with immediate polls, for an image (42_auth R132, R135). -/
def eraseReqs (dev : BitVec 7) (img : Nat → Byte) : List Request :=
  [pollReq dev, .busW dev regEeControl codeEeErase] ++
  (List.range wordCount).flatMap fun k => eeWriteReqs dev (wordAddr k) (img (2 * k)) (img (2 * k + 1))

/-- The request drives chip register 0x5F with a mode. -/
def Request.isModeWrite (v : Byte) : Request → Bool
  | .busW _ reg x => reg == regEeControl && x == v
  | _ => false

/-! ### HSTAT at completion -/

/-- Success, with the EEPROM left locked (60_exceptions R173, 10_state R29, R30). -/
def Hstat.finishedLocked (h : Hstat) : Hstat :=
  { h with busy := false, done := true, phase := .idle, lastmode := codeEeLock }

/-! ### Frames -/

/-- What no command ever changes: the host's own registers and inputs (10_state R34). -/
def State.sameHostSide (s t : State) : Prop :=
  t.hcmd = s.hcmd ∧ t.hcfg = s.hcfg ∧ t.hpoll = s.hpoll ∧ t.himga = s.himga ∧ t.cur = s.cur ∧
    t.busReady = s.busReady ∧ t.reads = s.reads

/-! ### The invariant -/

/-- The position of REWRITE's step 6, the PWD_OK test (42_auth R132). -/
def rewriteGate : Nat := 2 + authOps.length

/-- What holds of every reachable state. -/
structure State.Inv (s : State) : Prop where
  /-- IMG is in canonical form. -/
  img : s.img.wf
  /-- CUR is the last accepted command word (10_state R21). -/
  cur : s.cur = s.hcmd
  /-- A running command stands at one of its lines (10_state R38). -/
  position : s.hstat.busy = true → s.pos < s.lines.length
  /-- A running command has not completed (10_state R24, R25). -/
  running : s.hstat.busy = true → s.hstat.done = false ∧ s.hstat.err = false
  /-- ERRCODE is NONE exactly when ERR is 0 (10_state R25). -/
  errcode : s.hstat.err = false ↔ s.hstat.errcode = .none
  /-- Only a completed command has ERR set (60_exceptions R172). -/
  completed : s.hstat.err = true → s.hstat.done = true
  /-- PHASE Idle means the last mode written is the lock, ModeSet that it is another (10_state R29, R30). -/
  locked : s.hstat.phase = .idle → s.hstat.lastmode = codeEeLock
  moded : s.hstat.phase = .modeSet → s.hstat.lastmode ≠ codeEeLock
  /-- The word index is 0..64 (10_state R38). -/
  widx : s.widx.toNat ≤ wordCount
  /-- A command past its prologue has passed it (60_exceptions R171). -/
  admitted : s.hstat.busy = true → 0 < s.pos → ∀ i, s.fetch = .ok i →
    i.wellFormed = true ∧ (needOf i = .live → s.hcfg.subst = .liveDevice)
  /-- REWRITE past its step 6 holds a status byte with PWD_OK (42_auth R132). -/
  granted : s.hstat.busy = true → s.fetch = .ok .rewrite → rewriteGate < s.pos →
    s.authByte.getLsbD bitPwdOk = true

end Sys2Proof.Machine
end

