-- ==== Sys2Proof/Certificates/Slice0/Obligations.lean ====
section
/-! DEFINITION. The statements for the provers, each named after what it says. A command's result is stated as the
whole next state, so its frame is part of it: a field the update does not name is unchanged. In every statement the
host side's list `host`, the answers listed in `chipIn` and `fileIn`, and the log `trace` are the model's own fields
(log entries 1, 2 and 10). -/

open Sys2Proof Sys2Proof.Machine

/-! ### Encoding (30_encoding) -/

/-- R86, R87: every instruction, whatever its operands, is what the decoder reads from its code. -/
def Obligations.DecodeOfEncode : Prop := ∀ i : Instr, decode (encode i) = .ok i

/-- R87: each code has one meaning, so encoding what it decodes to gives it back. -/
def Obligations.EncodeOfDecode : Prop := ∀ (c : Code) (i : Instr), decode c = .ok i → encode i = c

/-- R87, R89: a word is a command exactly when the mask and match of one row of the table hold of it. -/
def Obligations.LegalExactlyWhenMaskMatches : Prop :=
  ∀ w : Word32, legalWord w = true ↔ ∃ i, decodeCommand w = .ok i

/-- R94, R91: the worked encodings of the spec, and its five control codes, decode to what it says they are. -/
def Obligations.WorkedEncodingsDecode : Prop :=
  decodeTableWord 32 0x015F0000 = some (.rdreg 0x5F) ∧
  decodeTableWord 32 0x02150100 = some (.wrreg 0x15 0x01) ∧
  decodeTableWord 32 0x03000000 = some .chipid ∧
  decodeTableWord 32 0x10340000 = some (.rdword 0x34) ∧
  decodeTableWord 32 0x11341900 = some (.wrword 0x34 0x19 0x00) ∧
  decodeTableWord 32 0x14000000 = some .rewrite ∧
  decodeTableWord 32 0x200C0000 = some (.cellv 12) ∧
  decodeTableWord 32 0x23000700 = some (.limit 0 0 7) ∧
  decodeTableWord 32 0x24000000 = some (.thresh 0) ∧
  decodeTableWord 32 0x25000201 = some (.adc2mv 513) ∧
  decodeTableWord 32 0x2600F47A = some (.v2adc 62586) ∧
  decodeTableWord 32 0x27000019 = some (.setrs 25) ∧
  decodeTableWord 32 0x2883D090 = some (.setvl 2 250000) ∧
  decodeTableWord 32 0x30024380 = some (.unpack 0x02 4 3 true) ∧
  decodeTableWord 32 0x310000F8 = some (.sext4 0xF8) ∧
  decodeTableWord 32 0x38000045 = some (.decauth 0x45) ∧
  decodeTableWord 8 0x00 = some .eeLock ∧
  decodeTableWord 8 0x50 = some .eeAuth ∧
  decodeTableWord 8 0x52 = some .eeWrite ∧
  decodeTableWord 8 0x53 = some .eeErase ∧
  decodeTableWord 8 0x55 = some .eeRead

/-! ### Step, acceptance, idleness -/

/-- While BUSY, at the host side's rest or pass, a step is exec of the instruction CUR decodes to (R21, R23). -/
def Obligations.StepRunsDecodedCommand : Prop :=
  ∀ (s : State) (i : Instr), s.hstat.busy = true → decodeCommand s.cur = .ok i →
    (s.host = [] ∨ ∃ rest, s.host = .pass :: rest) → step s = exec i s

/-- A turn of one micro-operation (the host side's pass) whose line writes a control code to 0x5F is exec of that code,
whatever command is running. That exec of such a row is the one write of 0x5F is the model's choice (log entry 13), and
so are the pass and the micro-operation (log entries 2 and 3); R91 gives the codes and what writes them. -/
def Obligations.StepRunsControlCode : Prop :=
  ∀ (s : State) (rest : List HostAct) (v : State → Byte) (i : Instr), s.hstat.busy = true →
    s.host = .pass :: rest → s.lines[s.pos]? = some (.busW regEeControl v) → decodeControl (v s) = .ok i →
    step s = exec i s

/-- R91, R29, R30: each control code completes as one write of 0x5F; the lock leaves PHASE Idle, the others ModeSet.
Position and temporaries: the model's choice (log entry 8). -/
def Obligations.ControlCodesDriveMode : Prop :=
  ∀ s : State, s.host = [] →
    exec .eeLock s = .next { s with
      hstat := { s.hstat with phase := .idle, lastmode := 0x00 }, pos := s.pos + 1,
      trace := s.trace ++ [.busW s.hcfg.devaddr 0x5F 0x00] } ∧
    exec .eeAuth s = .next { s with
      hstat := { s.hstat with phase := .modeSet, lastmode := 0x50 }, pos := s.pos + 1,
      trace := s.trace ++ [.busW s.hcfg.devaddr 0x5F 0x50] } ∧
    exec .eeWrite s = .next { s with
      hstat := { s.hstat with phase := .modeSet, lastmode := 0x52 }, pos := s.pos + 1,
      trace := s.trace ++ [.busW s.hcfg.devaddr 0x5F 0x52] } ∧
    exec .eeErase s = .next { s with
      hstat := { s.hstat with phase := .modeSet, lastmode := 0x53 }, pos := s.pos + 1,
      trace := s.trace ++ [.busW s.hcfg.devaddr 0x5F 0x53] } ∧
    exec .eeRead s = .next { s with
      hstat := { s.hstat with phase := .modeSet, lastmode := 0x55 }, pos := s.pos + 1,
      trace := s.trace ++ [.busW s.hcfg.devaddr 0x5F 0x55] }

/-- R21: a write of HCMD while idle accepts the word as the current command. Position and temporaries: the model's
choice (log entry 8). -/
def Obligations.HcmdWriteAccepts : Prop :=
  ∀ (s : State) (w : Word32) (rest : List HostAct), s.hstat.busy = false → s.host = .write 0x00 w :: rest →
    step s = .next { s with
      cur := w, hcmd := w, hres0 := 0, hres1 := 0, pos := 0, host := rest
      hstat := { s.hstat with
        busy := true, done := false, err := false, warn := false, errcode := .none, authst := .none } }

/-- R89, R171: an illegal word (an opcode in no row, opcode 0 among them, or a reserved bit set) completes with
ILLEGAL_COMMAND and changes nothing else. -/
def Obligations.IllegalCommandCompletes : Prop :=
  (∀ w : Word32, w.extractLsb' 24 8 = 0 → legalWord w = false) ∧
  ∀ s : State, s.hstat.busy = true → legalWord s.cur = false → s.atStart →
    step s = .next { s with
      hstat := { s.hstat with busy := false, done := true, err := true, serr := true, errcode := .illegalCommand } }

/-- R23: while BUSY = 0 no step issues a bus or file request, and BUSY rises only by an accepted write of HCMD. -/
def Obligations.IdleIssuesNoRequest : Prop :=
  ∀ (s t : State), s.hstat.busy = false → step s = .next t →
    t.trace = s.trace ∧
    (t.hstat.busy = true → ∃ (w : Word32) (rest : List HostAct), t.cur = w ∧
      (s.host = .write 0x00 w :: rest ∨
        ∃ addr, s.host = .writeAt addr w :: rest ∧ addr = Config.ozecBase))

/-! ### The host registers (10_state) -/

/-- R22: writing HSTAT clears OVR on bit 4 and SERR on bit 5 and changes nothing else, BUSY or not. -/
def Obligations.HstatWriteClears : Prop :=
  ∀ (s : State) (w : Word32) (rest : List HostAct), s.host = .write 0x04 w :: rest →
    step s = .next { s with
      host := rest
      hstat := { s.hstat with
        ovr := if w.getLsbD 4 then false else s.hstat.ovr
        serr := if w.getLsbD 5 then false else s.hstat.serr } }

/-- R28, R22: every step that sets ERR leaves SERR at 1, a simultaneous write-1-to-clear included; SERR is cleared only
by a write of HSTAT with bit 5 set or by reset. -/
def Obligations.SerrRecordsErrors : Prop :=
  ∀ s t : State, step s = .next t →
    (s.hstat.err = false → t.hstat.err = true → t.hstat.serr = true) ∧
    (s.hstat.serr = true → t.hstat.serr = false →
      ∃ rest, s.host = .reset :: rest ∨ ∃ w : Word32, w.getLsbD 5 = true ∧
        (s.host = .write 0x04 w :: rest ∨ s.host = .statWith w :: rest ∨
          ∃ addr, s.host = .writeAt addr w :: rest ∧ addr = Config.ozecBase + 0x04))

/-- R33, R35, R37, R19: while idle, HCFG written and read back keeps bits 10:8 and 6:0, HIMGA bits 6:0, HPOLL all of
them; reserved bits read 0, and the write changes that register only. R18, R21, R22, R32: HCMD, HRES0 and HRES1 read as
they stand, BUSY or not; HSTAT reads each field at its place with the encodings of R170, R29 and R31, and 0 elsewhere. -/
def Obligations.ConfigWritesReadBack : Prop :=
  (∀ (s : State) (w : Word32), s.hstat.busy = false →
    ((s.hostWrite 0x10 w).hostValue 0x10 = w &&& 0x0000077F ∧
      s.hostWrite 0x10 w = { s with hcfg := (s.hostWrite 0x10 w).hcfg }) ∧
    ((s.hostWrite 0x14 w).hostValue 0x14 = w ∧ s.hostWrite 0x14 w = { s with hpoll := w }) ∧
    ((s.hostWrite 0x18 w).hostValue 0x18 = w &&& 0x0000007F ∧
      s.hostWrite 0x18 w = { s with himga := (s.hostWrite 0x18 w).himga })) ∧
  (∀ s : State, s.hostValue 0x00 = s.hcmd ∧ s.hostValue 0x08 = s.hres0 ∧ s.hostValue 0x0C = s.hres1) ∧
  (∀ s : State,
    let w := s.hostValue 0x04
    w.getLsbD 0 = s.hstat.busy ∧ w.getLsbD 1 = s.hstat.done ∧ w.getLsbD 2 = s.hstat.err ∧
    w.getLsbD 3 = s.hstat.warn ∧ w.getLsbD 4 = s.hstat.ovr ∧ w.getLsbD 5 = s.hstat.serr ∧
    w.extractLsb' 8 4 = s.hstat.errcode.toBits ∧ w.extractLsb' 12 3 = s.hstat.phase.toBits ∧
    w.extractLsb' 16 8 = s.hstat.lastmode ∧ w.extractLsb' 24 3 = s.hstat.authst.toBits ∧
    w.extractLsb' 6 2 = 0 ∧ w.getLsbD 15 = false ∧ w.extractLsb' 27 5 = 0) ∧
  [ErrCode.none, .transportUnavailable, .unknownChip, .authFailed, .imageSizeMismatch, .ioFailure, .eepromTimeout,
    .transportNack, .configError, .validationError, .illegalCommand].map ErrCode.toBits =
    [0, 1, 2, 3, 4, 5, 6, 7, 8, 9, 10] ∧
  [Phase.idle, .addressSet, .modeSet, .wordRead, .wordWrite].map Phase.toBits = [0, 1, 2, 3, 4] ∧
  [AuthState.none, .success, .passwordRejected, .busy].map AuthState.toBits = [0, 1, 2, 3]

/-- R34: while BUSY, a write of HCMD, HCFG, HPOLL, HIMGA or HIMGD is dropped and sets OVR. -/
def Obligations.GuardedWritesDroppedWhileBusy : Prop :=
  ∀ (s : State) (off : Nat) (w : Word32) (rest : List HostAct), s.hstat.busy = true →
    off ∈ [0x00, 0x10, 0x14, 0x18, 0x1C] → s.host = .write off w :: rest →
    step s = .next { s with host := rest, hstat := { s.hstat with ovr := true } }

/-- R19: an offset that is none of the twelve registers reads 0 and ignores writes; so do read-only registers' writes. -/
def Obligations.UnmappedOffsetsInert : Prop :=
  ∀ (s : State) (off : Nat) (w : Word32),
    ((off % 4 ≠ 0 ∨ 0x30 ≤ off) → s.hostValue off = 0 ∧ s.hostWrite off w = s ∧ s.afterHostRead off = s) ∧
    (off ∈ [0x08, 0x0C, 0x20, 0x24, 0x28, 0x2C] → s.hostWrite off w = s)

/-- R37, R34: while idle, a write of HIMGD stores bits 7:0 at HIMGA, sets its valid bit, leaves every other byte, and
advances HIMGA modulo 128; a read returns the byte at HIMGA and advances HIMGA, but not while BUSY. -/
def Obligations.HimgdAccess : Prop :=
  (∀ (s : State) (w : Word32), s.hstat.busy = false →
    let t := s.hostWrite 0x1C w
    (∀ j : Nat, t.img.read j = if j = s.himga.toNat then some (w.setWidth 8) else s.img.read j) ∧
    t.himga.toNat = (s.himga.toNat + 1) % 128 ∧ t.img.valid s.himga.toNat = true ∧
    t = { s with img := t.img, himga := t.himga }) ∧
  (∀ (s : State) (b : Byte) (rest : List HostAct), s.host = .read 0x1C :: rest →
    s.img.read s.himga.toNat = some b →
    step s = .next { s with
      host := rest, reads := s.reads ++ [b.setWidth 32]
      himga := if s.hstat.busy then s.himga else s.himga + 1 })

/-- R37: bit j of HIMGVk is V[32k + j]. -/
def Obligations.HimgvShowsValidBits : Prop :=
  ∀ (s : State) (k j : Nat), k < 4 → j < 32 →
    (s.hostValue (0x20 + 4 * k)).getLsbD j = s.img.valid (32 * k + j)

/-- R191, R193: reset puts every register to its reset value and issues no request, whatever was in progress. -/
def Obligations.ResetClearsRegisters : Prop :=
  ∀ (s : State) (rest : List HostAct), s.host = .reset :: rest →
    ∃ t, step s = .next t ∧ t.hcmd = 0 ∧ t.hres0 = 0 ∧ t.hres1 = 0 ∧ t.hpoll = 0 ∧ t.himga = 0 ∧
      t.hstat.word = 0 ∧ t.hcfg.devaddr = Config.devAddrReset ∧ t.hcfg.subst = .liveDevice ∧
      t.hcfg.force = false ∧ t.hcfg.nibmode = .sext ∧ (∀ j, t.img.valid j = false) ∧
      t.trace = s.trace ∧ t.chipIn = s.chipIn ∧ t.fileIn = s.fileIn ∧ t.host = rest

/-! ### The prologue (60_exceptions R171) -/

/-- R90: a command whose operand lies outside its domain completes with VALIDATION_ERROR and nothing else, whatever
the substrate and the transport. -/
def Obligations.OutOfDomainRefused : Prop :=
  ∀ (i : Instr) (s : State), s.atStart → i.wellFormed = false →
    exec i s = .next { s with
      hstat := { s.hstat with busy := false, done := true, err := true, serr := true, errcode := .validationError } }

/-- R171, checks 3 and 4: a live-only command on the file substrate completes with CONFIG_ERROR, and a command that
needs the bus with TRANSPORT_UNAVAILABLE when BUS_READY is 0; neither makes a request. -/
def Obligations.PrologueRefusesSubstrate : Prop :=
  ∀ (i : Instr) (s : State), isControl i = false → s.atStart → i.wellFormed = true →
    (needOf i = .live → s.hcfg.subst = .fileImage →
      exec i s = .next { s with
        hstat := { s.hstat with busy := false, done := true, err := true, serr := true, errcode := .configError } }) ∧
    (needOf i ≠ .noSubstrate → s.hcfg.subst = .liveDevice → s.busReady = false →
      exec i s = .next { s with
        hstat := { s.hstat with
          busy := false, done := true, err := true, serr := true, errcode := .transportUnavailable } })

/-! ### Register commands (40_bus) -/

/-- R105, R103: RDREG returns the byte the chip answers; a missing acknowledge ends it with TRANSPORT_NACK, HRES0 as it
was, and PHASE updated all the same. Position and temporaries: the model's choice (log entry 8). -/
def Obligations.RdregReturnsByte : Prop :=
  ∀ (s : State) (reg : Byte) (a : BusAnswer) (rest : List BusAnswer), s.atStartLive → s.chipIn = a :: rest →
    (answered a = true → exec (.rdreg reg) s = .next { s with
      hres0 := a.data.setWidth 32
      hstat := { s.hstat with
        busy := false, done := true
        phase := if reg = 0x5C ∨ reg = 0x5D then .wordRead else s.hstat.phase }
      tmp := { s.tmp with d := a.data }, pos := 3, chipIn := rest
      trace := s.trace ++ [.busR s.hcfg.devaddr reg] }) ∧
    (answered a = false → exec (.rdreg reg) s = .next { s with
      hstat := { s.hstat with
        busy := false, done := true, err := true, serr := true, errcode := .transportNack
        phase := if reg = 0x5C ∨ reg = 0x5D then .wordRead else s.hstat.phase }
      pos := 1, chipIn := rest, trace := s.trace ++ [.busR s.hcfg.devaddr reg] })

/-- R106, R108, R104, R29, R30: WRREG performs one write transaction and REBOOT two, 1 then 0 to register 0x15, with
no wait and no acknowledge looked at; PHASE and LASTMODE follow the register written. Position and temporaries: the
model's choice (log entry 8). -/
def Obligations.RegisterWriteCommands : Prop :=
  ∀ s : State, s.atStartLive →
    (∀ reg data : Byte, exec (.wrreg reg data) s = .next { s with
      hstat := { s.hstat with
        busy := false, done := true
        lastmode := if reg = 0x5F then data else s.hstat.lastmode
        phase := if reg = 0x5F then (if data = 0x00 then .idle else .modeSet)
          else if reg = 0x5E then .addressSet
          else if reg = 0x5C ∨ reg = 0x5D then .wordWrite else s.hstat.phase }
      pos := 2, trace := s.trace ++ [.busW s.hcfg.devaddr reg data] }) ∧
    exec .reboot s = .next { s with
      hstat := { s.hstat with busy := false, done := true }, pos := 3
      trace := s.trace ++ [.busW s.hcfg.devaddr 0x15 0x01, .busW s.hcfg.devaddr 0x15 0x00] }

/-- R107, R103: CHIPID succeeds on 2; on another ID it warns under FORCE and fails with UNKNOWN_CHIP otherwise; a missing
acknowledge ends it with TRANSPORT_NACK and HRES0 as it was. Position and temporaries: the model's choice (log entry
8). -/
def Obligations.ChipidChecksIdentity : Prop :=
  ∀ (s : State) (a : BusAnswer) (rest : List BusAnswer), s.atStartLive → s.chipIn = a :: rest →
    (answered a = true → exec .chipid s = .next { s with
      hres0 := a.data.setWidth 32
      hstat :=
        if a.data = 0x02 then { s.hstat with busy := false, done := true }
        else if s.hcfg.force then { s.hstat with busy := false, done := true, warn := true }
        else { s.hstat with busy := false, done := true, err := true, serr := true, errcode := .unknownChip }
      tmp := { s.tmp with id := a.data }
      pos := if a.data = 0x02 ∨ s.hcfg.force = true then 4 else 3
      chipIn := rest, trace := s.trace ++ [.busR s.hcfg.devaddr 0x00] }) ∧
    (answered a = false → exec .chipid s = .next { s with
      hstat := { s.hstat with busy := false, done := true, err := true, serr := true, errcode := .transportNack }
      pos := 1, chipIn := rest, trace := s.trace ++ [.busR s.hcfg.devaddr 0x00] })

/-! ### The busy poll (41_eeprom R112) -/

/-- R112, R199: with HPOLL = 0 a poll that keeps reading busy never ends: after any number of steps the command is
still running at the same line, and only polls were issued. Position and temporaries: the model's choice (log entry
8). -/
def Obligations.UnboundedPollNeverEnds : Prop :=
  ∀ (s : State) (l : List BusAnswer) (rest : List BusAnswer), s.hstat.busy = true → s.host = [] →
    s.lines[s.pos]? = some .poll → s.hpoll = 0 → s.chipIn = l ++ rest → (∀ a ∈ l, busyPoll a) →
    ∃ t, Host.Core.run Sys2Proof.core l.length s = .next t ∧ t.hstat = s.hstat ∧ t.pos = s.pos ∧
      t.chipIn = rest ∧ t.trace = s.trace ++ List.replicate l.length (.busR s.hcfg.devaddr 0x5F) ∧
      t = { s with pollcnt := t.pollcnt, tmp := { s.tmp with s := t.tmp.s }, chipIn := rest, trace := t.trace }

/-- R112, R199: with HPOLL = N ≥ 1, from a poll line with p polls made, within N - p steps the command moves on or
completes, whatever the chip answers. A busy poll ends a step (log entry 2), so no more than N polls are made. Position and temporaries: the model's choice (log entry 8). -/
def Obligations.BoundedPollEnds : Prop :=
  ∀ s : State, s.hstat.busy = true → s.host = [] → s.lines[s.pos]? = some .poll → s.hpoll ≠ 0 →
    s.pollcnt < s.hpoll →
    ∃ k t, k ≤ s.hpoll.toNat - s.pollcnt.toNat ∧ Host.Core.run Sys2Proof.core k s = .next t ∧
      (s.pos < t.pos ∨ t.hstat.busy = false)

/-- R112, R35: LOCK whose first HPOLL polls all read busy ends with EEPROM_TIMEOUT after exactly that many polls,
and writes no lock. -/
def Obligations.LockTimesOutAfterBound : Prop :=
  ∀ (s : State) (l : List BusAnswer) (rest : List BusAnswer), s.hstat.busy = true → s.fetch = .ok .lock →
    s.atStartLive → s.hpoll ≠ 0 → l.length = s.hpoll.toNat → s.chipIn = l ++ rest → (∀ a ∈ l, busyPoll a) →
    ∃ t, Host.Core.run Sys2Proof.core l.length s = .next t ∧
      t.hstat = { s.hstat with
        busy := false, done := true, err := true, serr := true, errcode := .eepromTimeout } ∧
      t.trace = s.trace ++ List.replicate l.length (.busR s.hcfg.devaddr 0x5F) ∧ t.chipIn = rest

/-- R113, R118: LOCK with a not-busy poll writes 0x00 to 0x5F. Position and temporaries: the model's choice (log entry
8). -/
def Obligations.LockReleases : Prop :=
  ∀ (s : State) (p : BusAnswer) (rest : List BusAnswer), s.atStartLive → s.chipIn = p :: rest → quiet p →
    exec .lock s = .next { s with
      hstat := s.hstat.finishedLocked, tmp := { s.tmp with s := p.data }, pollcnt := 1, pos := 4, chipIn := rest
      trace := s.trace ++ [.busR s.hcfg.devaddr 0x5F, .busW s.hcfg.devaddr 0x5F 0x00] }

/-! ### EEPROM words (41_eeprom) -/

/-- R114, R116: RDWORD on either substrate: the ten transactions, or the two file requests, and the little-endian
word. On the file substrate IOERR ends it with IO_FAILURE, and a size other than 128 with IMAGE_SIZE_MISMATCH before
any FileRead. Position and temporaries: the model's choice (log entry 8). -/
def Obligations.RdwordReadsWord : Prop :=
  ∀ (s : State) (ea : Byte), eaddrOk ea = true →
    (∀ (w : WordAnswers) (rest : List BusAnswer), s.atStartLive → s.chipIn = w.list ++ rest → w.good →
      exec (.rdword ea) s = .next { s with
        hres0 := (w.hi.data ++ w.lo.data).setWidth 32, hstat := s.hstat.finishedLocked
        tmp := { s.tmp with s := w.p5.data, b0 := w.lo.data, b1 := w.hi.data }
        pollcnt := 1, pos := 17, chipIn := rest, trace := s.trace ++ eeReadReqs s.hcfg.devaddr ea }) ∧
    (∀ (f : FileWord) (rest : List FileAnswer), s.atStartFile → s.fileIn = f.list ++ rest → f.good →
      exec (.rdword ea) s = .next { s with
        hres0 := (f.b1 ++ f.b0).setWidth 32, hstat := { s.hstat with busy := false, done := true }
        tmp := { s.tmp with n := 128, r := [f.b0, f.b1], b0 := f.b0, b1 := f.b1 }
        pos := 6, fileIn := rest, trace := s.trace ++ [.fileSize, .fileRead ea.toNat 2] }) ∧
    (∀ (sz : FileAnswer) (rest : List FileAnswer), s.atStartFile → s.fileIn = sz :: rest →
      (sz.ioerr = true → exec (.rdword ea) s = .next { s with
        hstat := { s.hstat with busy := false, done := true, err := true, serr := true, errcode := .ioFailure }
        pos := 1, fileIn := rest, trace := s.trace ++ [.fileSize] }) ∧
      (sz.ioerr = false → sz.size ≠ 128 → exec (.rdword ea) s = .next { s with
        hstat := { s.hstat with
          busy := false, done := true, err := true, serr := true, errcode := .imageSizeMismatch }
        tmp := { s.tmp with n := sz.size }, pos := 2, fileIn := rest, trace := s.trace ++ [.fileSize] })) ∧
    (∀ (sz rd : FileAnswer) (rest : List FileAnswer), s.atStartFile → s.fileIn = sz :: rd :: rest →
      sz.ioerr = false → sz.size = 128 → rd.ioerr = true → exec (.rdword ea) s = .next { s with
        hstat := { s.hstat with busy := false, done := true, err := true, serr := true, errcode := .ioFailure }
        tmp := { s.tmp with n := 128 }, pos := 3, fileIn := rest
        trace := s.trace ++ [.fileSize, .fileRead ea.toNat 2] })

/-- R174, R175: a NACK on RDWORD's last data read ends it at once: no lock follows, and LASTMODE shows read mode.
Position and temporaries: the model's choice (log entry 8). -/
def Obligations.RdwordNackLeavesUnlocked : Prop :=
  ∀ (s : State) (ea : Byte) (w : WordAnswers) (rest : List BusAnswer), s.atStartLive → eaddrOk ea = true →
    s.chipIn = [w.p1, w.p2, w.p3, w.hi, w.p4, w.lo] ++ rest →
    quiet w.p1 → quiet w.p2 → quiet w.p3 → answered w.hi = true → quiet w.p4 → answered w.lo = false →
    exec (.rdword ea) s = .next { s with
      hstat := { s.hstat with
        busy := false, done := true, err := true, serr := true, errcode := .transportNack
        phase := .wordRead, lastmode := 0x55 }
      tmp := { s.tmp with s := w.p4.data, b1 := w.hi.data }
      pollcnt := 1, pos := 12, chipIn := rest
      trace := s.trace ++ (eeReadReqs s.hcfg.devaddr ea).take 8 }

/-- R115, R117: WRWORD's ten transactions, mode before address, high byte before low byte, lock last. Position and
temporaries: the model's choice (log entry 8). -/
def Obligations.WrwordWritesWord : Prop :=
  ∀ (s : State) (ea b0 b1 : Byte) (p : PollAnswers) (rest : List BusAnswer), s.atStartLive → eaddrOk ea = true →
    s.chipIn = p.list ++ rest → p.good →
    exec (.wrword ea b0 b1) s = .next { s with
      hstat := s.hstat.finishedLocked, tmp := { s.tmp with s := p.p5.data }, pollcnt := 1, pos := 16
      chipIn := rest, trace := s.trace ++ eeWriteReqs s.hcfg.devaddr ea b0 b1 }

/-- R119: RDIMG on the live device stores all 64 words and locks after each. -/
def Obligations.RdimgLiveFillsImage : Prop :=
  ∀ (s : State) (w : Nat → WordAnswers) (rest : List BusAnswer), s.atStartLive →
    s.chipIn = ((List.range 64).flatMap fun k => (w k).list) ++ rest → (∀ k < 64, (w k).good) →
    ∃ t, exec .rdimg s = .next t ∧ t.hres0 = 128 ∧ t.hres1 = s.hres1 ∧ t.hstat = s.hstat.finishedLocked ∧
      (∀ k < 64, t.img.read (2 * k) = some (w k).lo.data ∧ t.img.read (2 * k + 1) = some (w k).hi.data) ∧
      (∀ j, 128 ≤ j → t.img.read j = s.img.read j) ∧
      t.trace = s.trace ++ (List.range 64).flatMap (fun k => eeReadReqs s.hcfg.devaddr (BitVec.ofNat 8 (2 * k))) ∧
      t.chipIn = rest ∧ s.sameHostSide t ∧ t.pw = s.pw ∧ t.authByte = s.authByte ∧ t.fileIn = s.fileIn ∧
      t.draws = s.draws ∧ t.host = []

/-- R119: RDIMG on the file substrate, with no bus transaction. -/
def Obligations.RdimgFileFillsImage : Prop :=
  ∀ (s : State) (f : Nat → FileWord) (rest : List FileAnswer), s.atStartFile →
    s.fileIn = ((List.range 64).flatMap fun k => (f k).list) ++ rest → (∀ k < 64, (f k).good) →
    ∃ t, exec .rdimg s = .next t ∧ t.hres0 = 128 ∧ t.hres1 = s.hres1 ∧
      t.hstat = { s.hstat with busy := false, done := true } ∧
      (∀ k < 64, t.img.read (2 * k) = some (f k).b0 ∧ t.img.read (2 * k + 1) = some (f k).b1) ∧
      (∀ j, 128 ≤ j → t.img.read j = s.img.read j) ∧
      t.trace = s.trace ++ (List.range 64).flatMap (fun k => [.fileSize, .fileRead (2 * k) 2]) ∧
      t.fileIn = rest ∧ s.sameHostSide t ∧ t.pw = s.pw ∧ t.authByte = s.authByte ∧ t.chipIn = s.chipIn ∧
      t.draws = s.draws ∧ t.host = []

/-- R119, R172: an error at word n of RDIMG keeps the n words already stored, changes no later byte, and HRES0 counts
the bytes stored. On the live device: a NACK at the j-th of the word's seven reads, or a busy poll under HPOLL = 1. On
the file substrate: IOERR, or a size other than 128. -/
def Obligations.RdimgErrorKeepsWords : Prop :=
  (∀ (s : State) (n j : Nat) (w : Nat → WordAnswers) (a : BusAnswer) (rest : List BusAnswer), n < 64 → j < 7 →
    s.atStartLive → s.hres0 = 0 →
    s.chipIn = ((List.range n).flatMap fun k => (w k).list) ++ (w n).list.take j ++ a :: rest →
    (∀ k ≤ n, (w k).good) →
    (answered a = false ∨ (s.hpoll = 1 ∧ busyPoll a ∧ j ∈ [0, 1, 2, 4, 6])) →
    ∃ t, exec .rdimg s = .next t ∧ t.hres0 = BitVec.ofNat 32 (2 * n) ∧ t.hstat.busy = false ∧
      t.hstat.done = true ∧ t.hstat.err = true ∧ t.hstat.serr = true ∧
      t.hstat.errcode = (if answered a = true then .eepromTimeout else .transportNack) ∧
      (∀ k < n, t.img.read (2 * k) = some (w k).lo.data ∧ t.img.read (2 * k + 1) = some (w k).hi.data) ∧
      (∀ i, 2 * n ≤ i → t.img.read i = s.img.read i) ∧
      t.trace.length = s.trace.length + 10 * n + [1, 3, 5, 6, 7, 8, 9].getD j 0) ∧
  (∀ (s : State) (n : Nat) (f : Nat → FileWord) (sz rd : FileAnswer) (rest : List FileAnswer), n < 64 →
    s.atStartFile → s.hres0 = 0 → s.fileIn = ((List.range n).flatMap fun k => (f k).list) ++ sz :: rd :: rest →
    (∀ k < n, (f k).good) → (sz.ioerr = true ∨ sz.size ≠ 128 ∨ rd.ioerr = true) →
    ∃ t, exec .rdimg s = .next t ∧ t.hres0 = BitVec.ofNat 32 (2 * n) ∧ t.hstat.busy = false ∧
      t.hstat.done = true ∧ t.hstat.err = true ∧ t.hstat.serr = true ∧
      t.hstat.errcode = (if sz.ioerr = false ∧ sz.size ≠ 128 then .imageSizeMismatch else .ioFailure) ∧
      (∀ k < n, t.img.read (2 * k) = some (f k).b0 ∧ t.img.read (2 * k + 1) = some (f k).b1) ∧
      (∀ i, 2 * n ≤ i → t.img.read i = s.img.read i) ∧
      t.trace.length = s.trace.length + 2 * n + (if sz.ioerr = false ∧ sz.size = 128 then 2 else 1))

/-- R120: LOADIMG replaces IMG by the file's 128 bytes, and changes IMG only if every check passes. Position and
temporaries: the model's choice (log entry 8). -/
def Obligations.LoadimgFillsImage : Prop :=
  ∀ (s : State) (sz rd : FileAnswer) (rest : List FileAnswer), s.atStart → s.fileIn = sz :: rd :: rest →
    (sz.ioerr = false → sz.size = 128 → rd.ioerr = false →
      ∃ img : Memory, exec .loadimg s = .next { s with
          hres0 := 128, img := img, hstat := { s.hstat with busy := false, done := true }
          tmp := { s.tmp with n := 128, r := fileBytes rd 128 }, pos := 6, fileIn := rest
          trace := s.trace ++ [.fileSize, .fileRead 0 128] } ∧
        (∀ j < 128, img.read j = some (rd.data.getD j 0)) ∧ (∀ j, 128 ≤ j → img.read j = s.img.read j)) ∧
    (sz.ioerr = true → exec .loadimg s = .next { s with
      hstat := { s.hstat with busy := false, done := true, err := true, serr := true, errcode := .ioFailure }
      pos := 1, fileIn := rd :: rest, trace := s.trace ++ [.fileSize] }) ∧
    (sz.ioerr = false → sz.size ≠ 128 → exec .loadimg s = .next { s with
      hstat := { s.hstat with
        busy := false, done := true, err := true, serr := true, errcode := .imageSizeMismatch }
      tmp := { s.tmp with n := sz.size }, pos := 2, fileIn := rd :: rest, trace := s.trace ++ [.fileSize] }) ∧
    (sz.ioerr = false → sz.size = 128 → rd.ioerr = true → exec .loadimg s = .next { s with
      hstat := { s.hstat with busy := false, done := true, err := true, serr := true, errcode := .ioFailure }
      tmp := { s.tmp with n := 128 }, pos := 3, fileIn := rest
      trace := s.trace ++ [.fileSize, .fileRead 0 128] })

/-- R121, R63: SAVEIMG hands all 128 bytes of a complete IMG to the file port in one request. Position and
temporaries: the model's choice (log entry 8). -/
def Obligations.SaveimgWritesWholeImage : Prop :=
  ∀ (s : State) (f : Nat → Byte) (a : FileAnswer) (rest : List FileAnswer), s.atStart →
    (∀ j < 128, s.img.read j = some (f j)) → s.fileIn = a :: rest →
    exec .saveimg s = .next { s with
      hres0 := if a.ioerr then s.hres0 else 128
      hstat := if a.ioerr then
          { s.hstat with busy := false, done := true, err := true, serr := true, errcode := .ioFailure }
        else { s.hstat with busy := false, done := true }
      pos := if a.ioerr then 2 else 4, fileIn := rest
      trace := s.trace ++ [.fileWriteAll ((List.range 128).map f)] }

/-- R121, R132: an IMG with an invalid byte is refused without a request, by SAVEIMG on any substrate and whatever
BUS_READY is, and by REWRITE on a ready live device. Position and temporaries: the model's choice (log entry 8). -/
def Obligations.IncompleteImageRefused : Prop :=
  ∀ (s : State) (j : Nat), j < 128 → s.img.valid j = false →
    (s.atStart → exec .saveimg s = .next { s with
      hstat := { s.hstat with
        busy := false, done := true, err := true, serr := true, errcode := .imageSizeMismatch }, pos := 1 }) ∧
    (s.atStartLive → exec .rewrite s = .next { s with
      hstat := { s.hstat with
        busy := false, done := true, err := true, serr := true, errcode := .imageSizeMismatch }, pos := 1 })

/-! ### REWRITE (42_auth) -/

/-- R132, R135(a): granted, REWRITE erases once and writes the 64 words of IMG in ascending order. That PW and AS still
hold the password word and the status byte afterwards is the model's choice (log entry 8): R38 gives them no value
there. -/
def Obligations.RewriteGrantedWritesImage : Prop :=
  ∀ (s : State) (img : Nat → Byte) (w : WordAnswers) (p st q e : BusAnswer) (ps : Nat → PollAnswers)
    (rest : List BusAnswer), s.atStartLive → (∀ j < 128, s.img.read j = some (img j)) →
    s.chipIn = w.list ++ [p, st, q, e] ++ ((List.range 64).flatMap fun k => (ps k).list) ++ rest →
    w.good → quiet p → answered st = true → quiet q → quiet e → (∀ k < 64, (ps k).good) →
    st.data.getLsbD 6 = true →
    ∃ t, exec .rewrite s = .next t ∧ t.hres0 = st.data.setWidth 32 ∧
      t.hres1 = (w.hi.data ++ w.lo.data).setWidth 32 ∧
      t.hstat = { s.hstat.finishedLocked with authst := .success } ∧
      t.trace = s.trace ++ authReqs s.hcfg.devaddr w.lo.data w.hi.data ++ eraseReqs s.hcfg.devaddr img ∧
      (t.trace.drop s.trace.length).countP (Request.isModeWrite 0x53) = 1 ∧
      (t.trace.drop s.trace.length).countP (Request.isModeWrite 0x52) = 64 ∧
      (t.trace.drop s.trace.length).length = 659 ∧
      t.pw = w.hi.data ++ w.lo.data ∧ t.authByte = st.data ∧ t.img = s.img ∧ t.chipIn = rest ∧
      s.sameHostSide t ∧ t.fileIn = s.fileIn ∧ t.draws = s.draws ∧ t.host = []

/-- R132, R135(b): rejected, REWRITE locks and ends with AUTH_FAILED; no erase and no write occurs. -/
def Obligations.RewriteRejectedWritesNothing : Prop :=
  ∀ (s : State) (w : WordAnswers) (p st q : BusAnswer) (rest : List BusAnswer), s.atStartLive →
    s.img.complete = true → s.chipIn = w.list ++ [p, st, q] ++ rest → w.good → quiet p → answered st = true →
    quiet q → st.data.getLsbD 6 = false →
    ∃ t, exec .rewrite s = .next t ∧ t.hres0 = st.data.setWidth 32 ∧
      t.hres1 = (w.hi.data ++ w.lo.data).setWidth 32 ∧
      t.hstat = { s.hstat with
        busy := false, done := true, err := true, serr := true, errcode := .authFailed, phase := .idle, lastmode := 0
        authst := if st.data.getLsbD 5 then .busy else .passwordRejected } ∧
      t.trace = s.trace ++ authReqs s.hcfg.devaddr w.lo.data w.hi.data ∧
      (t.trace.drop s.trace.length).length = 17 ∧ t.img = s.img ∧ t.chipIn = rest ∧ s.sameHostSide t

/-- R131, R135: from every state of the invariant, an erase is issued only by WRREG or by a REWRITE that holds a
status byte with PWD_OK. -/
def Obligations.EraseNeedsPasswordOk : Prop :=
  ∀ (s t : State) (r : Request), s.Inv → step s = .next t → r ∈ t.trace.drop s.trace.length →
    r.isModeWrite 0x53 = true →
    s.fetch = .ok (.wrreg 0x5F 0x53) ∨ (s.fetch = .ok .rewrite ∧ t.authByte.getLsbD 6 = true)

/-! ### Measurement (43_measure) -/

/-- R143: CELLV's 13-bit raw code and its voltage in 10 µV units. Position and temporaries: the model's choice (log
entry 8). -/
def Obligations.CellvDecodesVoltage : Prop :=
  ∀ (s : State) (sel : Byte) (lo hi : BusAnswer) (rest : List BusAnswer), s.atStartLive → sel.toNat ≤ 12 →
    s.chipIn = lo :: hi :: rest → answered lo = true → answered hi = true →
    exec (.cellv sel) s = .next { s with
      hres1 := BitVec.ofNat 32 (hi.data.toNat * 32 + lo.data.toNat / 8)
      hres0 := BitVec.ofNat 32 (122 * (hi.data.toNat * 32 + lo.data.toNat / 8))
      hstat := { s.hstat with busy := false, done := true }
      tmp := { s.tmp with lo := lo.data, hi := hi.data, raw := (hi.data.toNat * 32 + lo.data.toNat / 8 : Nat) }
      pos := 6, chipIn := rest
      trace := s.trace ++ [.busR s.hcfg.devaddr (0x32 + 2 * sel), .busR s.hcfg.devaddr (0x33 + 2 * sel)] }

/-- R144: CURR's signed current over the effective sense resistor, truncated toward zero. Position and temporaries:
the model's choice (log entry 8). -/
def Obligations.CurrDecodesCurrent : Prop :=
  ∀ (s : State) (lo hi : BusAnswer) (w : WordAnswers) (rest : List BusAnswer), s.atStartLive →
    s.chipIn = lo :: hi :: (w.list ++ rest) → answered lo = true → answered hi = true → w.good →
    let raw : Int := (hi.data ++ lo.data).toInt
    let t : Nat := if w.lo.data = 0 then 25 else w.lo.data.toNat
    exec .curr s = .next { s with
      hres1 := (hi.data ++ lo.data).signExtend 32
      hres0 := BitVec.ofInt 32 (Int.tdiv (raw * 7630) t)
      hstat := s.hstat.finishedLocked
      tmp := { s.tmp with
        lo := lo.data, hi := hi.data, raw := raw, t := t, s := w.p5.data, b0 := w.lo.data, b1 := w.hi.data }
      pollcnt := 1, pos := 22, chipIn := rest
      trace := s.trace ++ [.busR s.hcfg.devaddr 0x54, .busR s.hcfg.devaddr 0x55] ++ eeReadReqs s.hcfg.devaddr 0x34 }

/-- R145: RSENSE on either substrate: the stored byte, and the default for a stored 0. Position and temporaries: the
model's choice (log entry 8). -/
def Obligations.RsenseReadsResistor : Prop :=
  ∀ s : State,
    (∀ (w : WordAnswers) (rest : List BusAnswer), s.atStartLive → s.chipIn = w.list ++ rest → w.good →
      exec .rsense s = .next { s with
        hres1 := w.lo.data.setWidth 32
        hres0 := if w.lo.data = 0 then 25 else w.lo.data.setWidth 32
        hstat := s.hstat.finishedLocked
        tmp := { s.tmp with s := w.p5.data, b0 := w.lo.data, b1 := w.hi.data }
        pollcnt := 1, pos := 18, chipIn := rest, trace := s.trace ++ eeReadReqs s.hcfg.devaddr 0x34 }) ∧
    (∀ (f : FileWord) (rest : List FileAnswer), s.atStartFile → s.fileIn = f.list ++ rest → f.good →
      exec .rsense s = .next { s with
        hres1 := f.b0.setWidth 32
        hres0 := if f.b0 = 0 then 25 else f.b0.setWidth 32
        hstat := { s.hstat with busy := false, done := true }
        tmp := { s.tmp with n := 128, r := [f.b0, f.b1], b0 := f.b0, b1 := f.b1 }
        pos := 7, fileIn := rest, trace := s.trace ++ [.fileSize, .fileRead 0x34 2] })

/-- R147: LIMIT on either substrate: the three words in order, the limit and its ceiling with the same offset.
Position and temporaries: the model's choice (log entry 8). -/
def Obligations.LimitDecodesCurrentLimit : Prop :=
  ∀ (s : State) (sel : Byte) (lsb wm1 : BitVec 4),
    sel.toNat ≤ 1 → wm1.toNat ≤ 7 → lsb.toNat + wm1.toNat + 1 ≤ 16 →
    let W : Nat := wm1.toNat + 1
    let value : Word16 → Nat := fun w => w.toNat / 2 ^ lsb.toNat % 2 ^ W
    let offset : Byte → Int := fun b => if s.hcfg.nibmode = .sext then Int.fdiv b.toInt 16 else Int.tdiv b.toInt 16
    let ohms : Byte → Nat := fun b => if b = 0 then 25 else b.toNat
    let limit : Nat → Int → Nat → Word32 := fun v o t => BitVec.ofInt 32 (Int.tdiv ((v + o) * 50000) t)
    (∀ (x y z : WordAnswers) (rest : List BusAnswer), s.atStartLive →
      s.chipIn = x.list ++ y.list ++ z.list ++ rest → x.good → y.good → z.good →
      exec (.limit sel lsb wm1) s = .next { s with
        hres0 := limit (value (x.hi.data ++ x.lo.data)) (offset y.lo.data) (ohms z.lo.data)
        hres1 := limit (2 ^ W - 1) (offset y.lo.data) (ohms z.lo.data)
        hstat := s.hstat.finishedLocked
        tmp := { s.tmp with
          W := W, l0 := x.lo.data, l1 := x.hi.data, o0 := y.lo.data, o1 := y.hi.data, r0 := z.lo.data
          r1 := z.hi.data, v := value (x.hi.data ++ x.lo.data), o := offset y.lo.data, t := ohms z.lo.data
          s := z.p5.data }
        pollcnt := 1, pos := 52, chipIn := rest
        trace := s.trace ++ eeReadReqs s.hcfg.devaddr 0x28 ++
          eeReadReqs s.hcfg.devaddr (if sel = 0 then 0x02 else 0x04) ++ eeReadReqs s.hcfg.devaddr 0x34 }) ∧
    (∀ (x y z : FileWord) (rest : List FileAnswer), s.atStartFile →
      s.fileIn = x.list ++ y.list ++ z.list ++ rest → x.good → y.good → z.good →
      exec (.limit sel lsb wm1) s = .next { s with
        hres0 := limit (value (x.b1 ++ x.b0)) (offset y.b0) (ohms z.b0)
        hres1 := limit (2 ^ W - 1) (offset y.b0) (ohms z.b0)
        hstat := { s.hstat with busy := false, done := true }
        tmp := { s.tmp with
          W := W, l0 := x.b0, l1 := x.b1, o0 := y.b0, o1 := y.b1, r0 := z.b0, r1 := z.b1
          v := value (x.b1 ++ x.b0), o := offset y.b0, t := ohms z.b0, n := 128, r := [z.b0, z.b1] }
        pos := 19, fileIn := rest
        trace := s.trace ++ [.fileSize, .fileRead 0x28 2, .fileSize, .fileRead (if sel = 0 then 0x02 else 0x04) 2,
          .fileSize, .fileRead 0x34 2] })

/-- R148: THRESH on either substrate: the 13-bit code and its voltage. Position and temporaries: the model's choice
(log entry 8). -/
def Obligations.ThreshDecodesVoltage : Prop :=
  ∀ (s : State) (sel : Byte), sel.toNat ≤ 3 →
    (∀ (w : WordAnswers) (rest : List BusAnswer), s.atStartLive → s.chipIn = w.list ++ rest → w.good →
      let code := w.hi.data.toNat * 32 + w.lo.data.toNat / 8
      exec (.thresh sel) s = .next { s with
        hres1 := BitVec.ofNat 32 code, hres0 := BitVec.ofNat 32 (122 * code), hstat := s.hstat.finishedLocked
        tmp := { s.tmp with
          a := 0x4A + 2 * sel, s := w.p5.data, b0 := w.lo.data, b1 := w.hi.data, code := code }
        pollcnt := 1, pos := 20, chipIn := rest
        trace := s.trace ++ eeReadReqs s.hcfg.devaddr (0x4A + 2 * sel) }) ∧
    (∀ (f : FileWord) (rest : List FileAnswer), s.atStartFile → s.fileIn = f.list ++ rest → f.good →
      let code := f.b1.toNat * 32 + f.b0.toNat / 8
      exec (.thresh sel) s = .next { s with
        hres1 := BitVec.ofNat 32 code, hres0 := BitVec.ofNat 32 (122 * code)
        hstat := { s.hstat with busy := false, done := true }
        tmp := { s.tmp with
          a := 0x4A + 2 * sel, n := 128, r := [f.b0, f.b1], b0 := f.b0, b1 := f.b1, code := code }
        pos := 9, fileIn := rest, trace := s.trace ++ [.fileSize, .fileRead (0x4A + 2 * sel.toNat) 2] })

/-- R149, R150: ADC2MV multiplies by 122, V2ADC divides by it rounding down. Position and temporaries: the model's
choice (log entry 8). -/
def Obligations.VoltageConversions : Prop :=
  ∀ s : State, s.atStart →
    (∀ code : BitVec 13, exec (.adc2mv code) s = .next { s with
      hres1 := code.setWidth 32, hres0 := BitVec.ofNat 32 (122 * code.toNat)
      hstat := { s.hstat with busy := false, done := true }, pos := 3 }) ∧
    (∀ x : BitVec 24, x.toNat < 999424 → exec (.v2adc x) s = .next { s with
      hres0 := BitVec.ofNat 32 (x.toNat / 122), hres1 := BitVec.ofNat 32 (122 * (x.toNat / 122))
      hstat := { s.hstat with busy := false, done := true }
      tmp := { s.tmp with code := x.toNat / 122 }, pos := 4 })

/-- R151: SETRS stores the resistance byte at 0x34 of IMG and no other byte. Position and temporaries: the model's
choice (log entry 8). -/
def Obligations.SetrsStoresResistor : Prop :=
  ∀ (s : State) (t : BitVec 16), s.atStart → 1 ≤ t.toNat → t.toNat ≤ 255 →
    ∃ img : Memory, exec (.setrs t) s = .next { s with
        hres0 := t.setWidth 32, img := img, hstat := { s.hstat with busy := false, done := true }, pos := 3 } ∧
      ∀ j, img.read j = if j = 0x34 then some (t.setWidth 8) else s.img.read j

/-- R152: SETVL stores the code of a voltage in IMG, keeping bits 2:0 of the low byte, so that THRESH's decode of the
two bytes gives the code back; where the low byte is invalid it ends with IMAGE_SIZE_MISMATCH and IMG is unchanged.
Position and temporaries: the model's choice (log entry 8). -/
def Obligations.SetvlStoresThreshold : Prop :=
  ∀ (s : State) (sel : BitVec 2) (val : BitVec 20), s.atStart → val.toNat < 999424 →
    (∀ old : Byte, s.img.read (0x4A + 2 * sel.toNat) = some old →
      ∃ (img : Memory) (lo hi : Byte), exec (.setvl sel val) s = .next { s with
          hres0 := BitVec.ofNat 32 (val.toNat / 122), img := img
          hstat := { s.hstat with busy := false, done := true }
          tmp := { s.tmp with
            code := val.toNat / 122, a := BitVec.ofNat 8 (0x4A + 2 * sel.toNat), lo := lo, hi := hi }
          pos := 8 } ∧
        hi.toNat * 32 + lo.toNat / 8 = val.toNat / 122 ∧ lo.toNat % 8 = old.toNat % 8 ∧
        ∀ j, img.read j = if j = 0x4A + 2 * sel.toNat then some lo
          else if j = 0x4A + 2 * sel.toNat + 1 then some hi else s.img.read j) ∧
    (s.img.valid (0x4A + 2 * sel.toNat) = false → exec (.setvl sel val) s = .next { s with
      hstat := { s.hstat with
        busy := false, done := true, err := true, serr := true, errcode := .imageSizeMismatch }
      tmp := { s.tmp with code := val.toNat / 122, a := BitVec.ofNat 8 (0x4A + 2 * sel.toNat) }, pos := 3 })

/-- R153: the two directions of the voltage scale. -/
def Obligations.VoltageScaleInverse : Prop :=
  (∀ code ≤ 8191, fdiv (adc2mv10 code) 122 = code) ∧
  (∀ x ≤ 999423, x ≤ adc2mv10 (v2adc x) + 121 ∧ adc2mv10 (v2adc x) ≤ x)

/-- R154, R142-R150: no decoder's result leaves a 32-bit signed register: CURR's and LIMIT's results are bounded, the
codes of CELLV and THRESH fit 13 bits, every such code's voltage reads as 122 times it, and no divisor is 0. -/
def Obligations.DecoderResultsFit : Prop :=
  (∀ (w : Word16) (b : Byte), |currentResult w.toInt (rsEff b)| ≤ 250019840) ∧
  (∀ (v : Nat) (b c : Byte) (m : NibMode), v ≤ 255 → |limitResult v (nib b m) (rsEff c)| ≤ 13100000) ∧
  (∀ x : Int, |x| ≤ 250019840 → (hresInt x).toInt = x) ∧
  (∀ hi lo : Byte, cellRaw hi lo ≤ 8191 ∧ threshCode hi lo ≤ 8191) ∧
  (∀ code ≤ 8191, (hresNat code).toInt = code ∧ (hresNat (adc2mv10 code)).toNat = 122 * code ∧
    (hresNat (adc2mv10 code)).toInt = (122 * code : Nat) ∧ 122 * code ≤ 999302) ∧
  (∀ b : Byte, 1 ≤ rsEff b ∧ rsEff b ≤ 255)

/-- R146: the two readings of the nibble, selected by NIBMODE (0 at reset); both lie in -8..7, and they differ exactly
when bit 7 is set and bits 3:0 are not 0, where CDIV gives one more. -/
def Obligations.NibbleModes : Prop :=
  (∀ b : Byte, nib b .sext = Int.fdiv b.toInt 16 ∧ nib b .cdiv = Int.tdiv b.toInt 16 ∧
    nib b .sext = (b.extractLsb' 4 4).toInt ∧
    (-8 ≤ nib b .sext ∧ nib b .sext ≤ 7) ∧ (-8 ≤ nib b .cdiv ∧ nib b .cdiv ≤ 7) ∧
    nib b .cdiv = nib b .sext + (if b.getLsbD 7 = true ∧ b.extractLsb' 0 4 ≠ 0 then 1 else 0)) ∧
  nib 0x80 .sext = -8 ∧ nib 0x80 .cdiv = -8 ∧
  NibMode.sext.toBit = 0 ∧ NibMode.cdiv.toBit = 1 ∧ State.reset.hcfg.nibmode = .sext

/-! ### Unpacker and status decoder (44_unpack, 45_status) -/

/-- R161, R162: UNPACK on either substrate, signed or unsigned. Position and temporaries: the model's choice (log
entry 8). -/
def Obligations.UnpackExtractsField : Prop :=
  ∀ (s : State) (ea : Byte) (lsb wm1 : BitVec 4) (sgn : Bool), eaddrOk ea = true → lsb.toNat + wm1.toNat + 1 ≤ 16 →
    let get : Word16 → Word32 := fun w =>
      let f : Nat := w.toNat / 2 ^ lsb.toNat % 2 ^ (wm1.toNat + 1)
      if sgn = true ∧ 2 ^ wm1.toNat ≤ f then BitVec.ofInt 32 (f - 2 ^ (wm1.toNat + 1)) else BitVec.ofNat 32 f
    (∀ (w : WordAnswers) (rest : List BusAnswer), s.atStartLive → s.chipIn = w.list ++ rest → w.good →
      exec (.unpack ea lsb wm1 sgn) s = .next { s with
        hres1 := (w.hi.data ++ w.lo.data).setWidth 32, hres0 := get (w.hi.data ++ w.lo.data)
        hstat := s.hstat.finishedLocked
        tmp := { s.tmp with
          s := w.p5.data, b0 := w.lo.data, b1 := w.hi.data, w := w.hi.data ++ w.lo.data }
        pollcnt := 1, pos := 19, chipIn := rest, trace := s.trace ++ eeReadReqs s.hcfg.devaddr ea }) ∧
    (∀ (f : FileWord) (rest : List FileAnswer), s.atStartFile → s.fileIn = f.list ++ rest → f.good →
      exec (.unpack ea lsb wm1 sgn) s = .next { s with
        hres1 := (f.b1 ++ f.b0).setWidth 32, hres0 := get (f.b1 ++ f.b0)
        hstat := { s.hstat with busy := false, done := true }
        tmp := { s.tmp with n := 128, r := [f.b0, f.b1], b0 := f.b0, b1 := f.b1, w := f.b1 ++ f.b0 }
        pos := 8, fileIn := rest, trace := s.trace ++ [.fileSize, .fileRead ea.toNat 2] })

/-- R164: the decoders' codes are fields of the unpacker. -/
def Obligations.UnpackerIdentities : Prop :=
  ∀ b1 b0 : Byte,
    hresNat (threshCode b1 b0) = field (wordOf b1 b0) 3 13 false ∧
    hresNat (cellRaw b1 b0) = field (wordOf b1 b0) 3 13 false ∧
    hresInt (nib b0 .sext) = field (wordOf 0 b0) 4 4 true ∧
    nib b0 .sext = (b0.sshiftRight 4).toInt

/-- R163, R167, R133: SEXT4 gives the nibble LIMIT would add; DECAUTH gives the tag mask and the class of a status
byte and does not change AUTHST. Position and temporaries: the model's choice (log entry 8). -/
def Obligations.ByteDecoders : Prop :=
  ∀ (s : State) (b : Byte), s.atStart →
    exec (.sext4 b) s = .next { s with
      hres0 := BitVec.ofInt 32 (if s.hcfg.nibmode = .sext then Int.fdiv b.toInt 16 else Int.tdiv b.toInt 16)
      hres1 := b.setWidth 32, hstat := { s.hstat with busy := false, done := true }, pos := 3 } ∧
    exec (.decauth b) s = .next { s with
      hres0 := (b &&& 0xEF).setWidth 32
      hres1 := if b.getLsbD 6 then 1 else if b.getLsbD 5 then 3 else 2
      hstat := { s.hstat with busy := false, done := true }, pos := 3 }

/-! ### The whole machine -/

/-- The invariant holds at reset. -/
def Obligations.InvAtReset : Prop := State.reset.Inv

/-- Every step from a state of the invariant answers a next state of the invariant: the machine never stops. -/
def Obligations.StepKeepsInv : Prop := ∀ s : State, s.Inv → ∃ t, step s = .next t ∧ t.Inv

/-- R34, R76: no command changes what the host configured, from any state. -/
def Obligations.CommandsKeepHostSide : Prop :=
  ∀ (i : Instr) (s t : State), exec i s = .next t → s.sameHostSide t

/-- R91: OZEC writes only the five control codes to 0x5F, except through WRREG. -/
def Obligations.OnlyControlCodesReachChip : Prop :=
  ∀ (s t : State) (dev : BitVec 7) (v : Byte), step s = .next t →
    .busW dev 0x5F v ∈ t.trace.drop s.trace.length →
    v ∈ [0x00, 0x50, 0x52, 0x53, 0x55] ∨ s.fetch = .ok (.wrreg 0x5F v)

/-- R68: an odd or out-of-range EEPROM address is never written to 0x5E, except through WRREG. -/
def Obligations.BadEepromAddressNeverReachesChip : Prop :=
  ∀ (s t : State) (dev : BitVec 7) (v : Byte), s.Inv → step s = .next t →
    .busW dev 0x5E v ∈ t.trace.drop s.trace.length →
    (v.toNat % 2 = 0 ∧ v.toNat ≤ 126) ∨ s.fetch = .ok (.wrreg 0x5E v)

/-- R171, 41_eeprom R114: on the file substrate no step issues a bus transaction. -/
def Obligations.FileSubstrateNeverUsesBus : Prop :=
  ∀ (s t : State) (r : Request), s.Inv → s.hcfg.subst = .fileImage → step s = .next t →
    r ∈ t.trace.drop s.trace.length → r.onBus = false

/-- R31, R26: only REWRITE makes AUTHST leave None, and only CHIPID sets WARN. -/
def Obligations.OnlyRewriteSetsAuthst : Prop :=
  ∀ s t : State, step s = .next t →
    (t.hstat.authst ≠ s.hstat.authst → t.hstat.authst = .none ∨ s.fetch = .ok .rewrite) ∧
    (t.hstat.warn = true → s.hstat.warn = true ∨ s.fetch = .ok .chipid)
end

