-- ==== Sys2Proof/Laws/Flags.lean ====
section
/-! SUPPORT. What each bus transaction leaves of HSTAT: only PHASE and LASTMODE can change (10_state R29, R30). -/

namespace Sys2Proof.Machine

variable (h : Hstat) (reg v : Byte)

@[simp] theorem Hstat.afterWrite_busy : (h.afterWrite reg v).busy = h.busy := by
  unfold Hstat.afterWrite
  split_ifs <;> rfl

@[simp] theorem Hstat.afterRead_busy : (h.afterRead reg).busy = h.busy := by
  unfold Hstat.afterRead
  split_ifs <;> rfl

@[simp] theorem Hstat.afterWrite_done : (h.afterWrite reg v).done = h.done := by
  unfold Hstat.afterWrite
  split_ifs <;> rfl

@[simp] theorem Hstat.afterRead_done : (h.afterRead reg).done = h.done := by
  unfold Hstat.afterRead
  split_ifs <;> rfl

@[simp] theorem Hstat.afterWrite_err : (h.afterWrite reg v).err = h.err := by
  unfold Hstat.afterWrite
  split_ifs <;> rfl

@[simp] theorem Hstat.afterRead_err : (h.afterRead reg).err = h.err := by
  unfold Hstat.afterRead
  split_ifs <;> rfl

@[simp] theorem Hstat.afterWrite_warn : (h.afterWrite reg v).warn = h.warn := by
  unfold Hstat.afterWrite
  split_ifs <;> rfl

@[simp] theorem Hstat.afterRead_warn : (h.afterRead reg).warn = h.warn := by
  unfold Hstat.afterRead
  split_ifs <;> rfl

@[simp] theorem Hstat.afterWrite_ovr : (h.afterWrite reg v).ovr = h.ovr := by
  unfold Hstat.afterWrite
  split_ifs <;> rfl

@[simp] theorem Hstat.afterRead_ovr : (h.afterRead reg).ovr = h.ovr := by
  unfold Hstat.afterRead
  split_ifs <;> rfl

@[simp] theorem Hstat.afterWrite_serr : (h.afterWrite reg v).serr = h.serr := by
  unfold Hstat.afterWrite
  split_ifs <;> rfl

@[simp] theorem Hstat.afterRead_serr : (h.afterRead reg).serr = h.serr := by
  unfold Hstat.afterRead
  split_ifs <;> rfl

@[simp] theorem Hstat.afterWrite_errcode : (h.afterWrite reg v).errcode = h.errcode := by
  unfold Hstat.afterWrite
  split_ifs <;> rfl

@[simp] theorem Hstat.afterRead_errcode : (h.afterRead reg).errcode = h.errcode := by
  unfold Hstat.afterRead
  split_ifs <;> rfl

@[simp] theorem Hstat.afterWrite_authst : (h.afterWrite reg v).authst = h.authst := by
  unfold Hstat.afterWrite
  split_ifs <;> rfl

@[simp] theorem Hstat.afterRead_authst : (h.afterRead reg).authst = h.authst := by
  unfold Hstat.afterRead
  split_ifs <;> rfl

@[simp] theorem Hstat.afterRead_lastmode : (h.afterRead reg).lastmode = h.lastmode := by
  unfold Hstat.afterRead
  split_ifs <;> rfl

/-- LASTMODE is the last value written to 0x5F (10_state R30). -/
theorem Hstat.afterWrite_lastmode : (h.afterWrite reg v).lastmode = if reg = regEeControl then v else h.lastmode := by
  unfold Hstat.afterWrite
  split_ifs <;> rfl

/-- PHASE after a write (10_state R29). -/
theorem Hstat.afterWrite_phase : (h.afterWrite reg v).phase =
    if reg = regEeControl then (if v = codeEeLock then .idle else .modeSet)
    else if reg = regEeAddr then .addressSet
    else if reg = regEeDataLo ∨ reg = regEeDataHi then .wordWrite
    else h.phase := by
  unfold Hstat.afterWrite
  split_ifs <;> rfl

/-- PHASE after a read (10_state R29). -/
theorem Hstat.afterRead_phase : (h.afterRead reg).phase =
    if reg = regEeDataLo ∨ reg = regEeDataHi then .wordRead else h.phase := by
  unfold Hstat.afterRead
  split_ifs <;> rfl

end Sys2Proof.Machine
end

