-- ==== Sys2Proof/Laws/State.lean ====
section
/-! SUPPORT. One lemma per field per named update of the state, all true by unfolding, so that no later proof
unfolds a record update. -/

namespace Sys2Proof.Machine

section
variable (s : State) (x : Word32)

@[simp] theorem State.setHcmd_hcmd : (s.setHcmd x).hcmd = x := rfl
@[simp] theorem State.setHcmd_hstat : (s.setHcmd x).hstat = s.hstat := rfl
@[simp] theorem State.setHcmd_hres0 : (s.setHcmd x).hres0 = s.hres0 := rfl
@[simp] theorem State.setHcmd_hres1 : (s.setHcmd x).hres1 = s.hres1 := rfl
@[simp] theorem State.setHcmd_hcfg : (s.setHcmd x).hcfg = s.hcfg := rfl
@[simp] theorem State.setHcmd_hpoll : (s.setHcmd x).hpoll = s.hpoll := rfl
@[simp] theorem State.setHcmd_himga : (s.setHcmd x).himga = s.himga := rfl
@[simp] theorem State.setHcmd_img : (s.setHcmd x).img = s.img := rfl
@[simp] theorem State.setHcmd_cur : (s.setHcmd x).cur = s.cur := rfl
@[simp] theorem State.setHcmd_pos : (s.setHcmd x).pos = s.pos := rfl
@[simp] theorem State.setHcmd_pollcnt : (s.setHcmd x).pollcnt = s.pollcnt := rfl
@[simp] theorem State.setHcmd_widx : (s.setHcmd x).widx = s.widx := rfl
@[simp] theorem State.setHcmd_pw : (s.setHcmd x).pw = s.pw := rfl
@[simp] theorem State.setHcmd_authByte : (s.setHcmd x).authByte = s.authByte := rfl
@[simp] theorem State.setHcmd_tmp : (s.setHcmd x).tmp = s.tmp := rfl
@[simp] theorem State.setHcmd_busReady : (s.setHcmd x).busReady = s.busReady := rfl
@[simp] theorem State.setHcmd_chipIn : (s.setHcmd x).chipIn = s.chipIn := rfl
@[simp] theorem State.setHcmd_fileIn : (s.setHcmd x).fileIn = s.fileIn := rfl
@[simp] theorem State.setHcmd_draws : (s.setHcmd x).draws = s.draws := rfl
@[simp] theorem State.setHcmd_host : (s.setHcmd x).host = s.host := rfl
@[simp] theorem State.setHcmd_trace : (s.setHcmd x).trace = s.trace := rfl
@[simp] theorem State.setHcmd_reads : (s.setHcmd x).reads = s.reads := rfl

end

section
variable (s : State) (x : Hstat)

@[simp] theorem State.setHstat_hcmd : (s.setHstat x).hcmd = s.hcmd := rfl
@[simp] theorem State.setHstat_hstat : (s.setHstat x).hstat = x := rfl
@[simp] theorem State.setHstat_hres0 : (s.setHstat x).hres0 = s.hres0 := rfl
@[simp] theorem State.setHstat_hres1 : (s.setHstat x).hres1 = s.hres1 := rfl
@[simp] theorem State.setHstat_hcfg : (s.setHstat x).hcfg = s.hcfg := rfl
@[simp] theorem State.setHstat_hpoll : (s.setHstat x).hpoll = s.hpoll := rfl
@[simp] theorem State.setHstat_himga : (s.setHstat x).himga = s.himga := rfl
@[simp] theorem State.setHstat_img : (s.setHstat x).img = s.img := rfl
@[simp] theorem State.setHstat_cur : (s.setHstat x).cur = s.cur := rfl
@[simp] theorem State.setHstat_pos : (s.setHstat x).pos = s.pos := rfl
@[simp] theorem State.setHstat_pollcnt : (s.setHstat x).pollcnt = s.pollcnt := rfl
@[simp] theorem State.setHstat_widx : (s.setHstat x).widx = s.widx := rfl
@[simp] theorem State.setHstat_pw : (s.setHstat x).pw = s.pw := rfl
@[simp] theorem State.setHstat_authByte : (s.setHstat x).authByte = s.authByte := rfl
@[simp] theorem State.setHstat_tmp : (s.setHstat x).tmp = s.tmp := rfl
@[simp] theorem State.setHstat_busReady : (s.setHstat x).busReady = s.busReady := rfl
@[simp] theorem State.setHstat_chipIn : (s.setHstat x).chipIn = s.chipIn := rfl
@[simp] theorem State.setHstat_fileIn : (s.setHstat x).fileIn = s.fileIn := rfl
@[simp] theorem State.setHstat_draws : (s.setHstat x).draws = s.draws := rfl
@[simp] theorem State.setHstat_host : (s.setHstat x).host = s.host := rfl
@[simp] theorem State.setHstat_trace : (s.setHstat x).trace = s.trace := rfl
@[simp] theorem State.setHstat_reads : (s.setHstat x).reads = s.reads := rfl

end

section
variable (s : State) (x : Word32)

@[simp] theorem State.setHres0_hcmd : (s.setHres0 x).hcmd = s.hcmd := rfl
@[simp] theorem State.setHres0_hstat : (s.setHres0 x).hstat = s.hstat := rfl
@[simp] theorem State.setHres0_hres0 : (s.setHres0 x).hres0 = x := rfl
@[simp] theorem State.setHres0_hres1 : (s.setHres0 x).hres1 = s.hres1 := rfl
@[simp] theorem State.setHres0_hcfg : (s.setHres0 x).hcfg = s.hcfg := rfl
@[simp] theorem State.setHres0_hpoll : (s.setHres0 x).hpoll = s.hpoll := rfl
@[simp] theorem State.setHres0_himga : (s.setHres0 x).himga = s.himga := rfl
@[simp] theorem State.setHres0_img : (s.setHres0 x).img = s.img := rfl
@[simp] theorem State.setHres0_cur : (s.setHres0 x).cur = s.cur := rfl
@[simp] theorem State.setHres0_pos : (s.setHres0 x).pos = s.pos := rfl
@[simp] theorem State.setHres0_pollcnt : (s.setHres0 x).pollcnt = s.pollcnt := rfl
@[simp] theorem State.setHres0_widx : (s.setHres0 x).widx = s.widx := rfl
@[simp] theorem State.setHres0_pw : (s.setHres0 x).pw = s.pw := rfl
@[simp] theorem State.setHres0_authByte : (s.setHres0 x).authByte = s.authByte := rfl
@[simp] theorem State.setHres0_tmp : (s.setHres0 x).tmp = s.tmp := rfl
@[simp] theorem State.setHres0_busReady : (s.setHres0 x).busReady = s.busReady := rfl
@[simp] theorem State.setHres0_chipIn : (s.setHres0 x).chipIn = s.chipIn := rfl
@[simp] theorem State.setHres0_fileIn : (s.setHres0 x).fileIn = s.fileIn := rfl
@[simp] theorem State.setHres0_draws : (s.setHres0 x).draws = s.draws := rfl
@[simp] theorem State.setHres0_host : (s.setHres0 x).host = s.host := rfl
@[simp] theorem State.setHres0_trace : (s.setHres0 x).trace = s.trace := rfl
@[simp] theorem State.setHres0_reads : (s.setHres0 x).reads = s.reads := rfl

end

section
variable (s : State) (x : Word32)

@[simp] theorem State.setHres1_hcmd : (s.setHres1 x).hcmd = s.hcmd := rfl
@[simp] theorem State.setHres1_hstat : (s.setHres1 x).hstat = s.hstat := rfl
@[simp] theorem State.setHres1_hres0 : (s.setHres1 x).hres0 = s.hres0 := rfl
@[simp] theorem State.setHres1_hres1 : (s.setHres1 x).hres1 = x := rfl
@[simp] theorem State.setHres1_hcfg : (s.setHres1 x).hcfg = s.hcfg := rfl
@[simp] theorem State.setHres1_hpoll : (s.setHres1 x).hpoll = s.hpoll := rfl
@[simp] theorem State.setHres1_himga : (s.setHres1 x).himga = s.himga := rfl
@[simp] theorem State.setHres1_img : (s.setHres1 x).img = s.img := rfl
@[simp] theorem State.setHres1_cur : (s.setHres1 x).cur = s.cur := rfl
@[simp] theorem State.setHres1_pos : (s.setHres1 x).pos = s.pos := rfl
@[simp] theorem State.setHres1_pollcnt : (s.setHres1 x).pollcnt = s.pollcnt := rfl
@[simp] theorem State.setHres1_widx : (s.setHres1 x).widx = s.widx := rfl
@[simp] theorem State.setHres1_pw : (s.setHres1 x).pw = s.pw := rfl
@[simp] theorem State.setHres1_authByte : (s.setHres1 x).authByte = s.authByte := rfl
@[simp] theorem State.setHres1_tmp : (s.setHres1 x).tmp = s.tmp := rfl
@[simp] theorem State.setHres1_busReady : (s.setHres1 x).busReady = s.busReady := rfl
@[simp] theorem State.setHres1_chipIn : (s.setHres1 x).chipIn = s.chipIn := rfl
@[simp] theorem State.setHres1_fileIn : (s.setHres1 x).fileIn = s.fileIn := rfl
@[simp] theorem State.setHres1_draws : (s.setHres1 x).draws = s.draws := rfl
@[simp] theorem State.setHres1_host : (s.setHres1 x).host = s.host := rfl
@[simp] theorem State.setHres1_trace : (s.setHres1 x).trace = s.trace := rfl
@[simp] theorem State.setHres1_reads : (s.setHres1 x).reads = s.reads := rfl

end

section
variable (s : State) (x : Hcfg)

@[simp] theorem State.setHcfg_hcmd : (s.setHcfg x).hcmd = s.hcmd := rfl
@[simp] theorem State.setHcfg_hstat : (s.setHcfg x).hstat = s.hstat := rfl
@[simp] theorem State.setHcfg_hres0 : (s.setHcfg x).hres0 = s.hres0 := rfl
@[simp] theorem State.setHcfg_hres1 : (s.setHcfg x).hres1 = s.hres1 := rfl
@[simp] theorem State.setHcfg_hcfg : (s.setHcfg x).hcfg = x := rfl
@[simp] theorem State.setHcfg_hpoll : (s.setHcfg x).hpoll = s.hpoll := rfl
@[simp] theorem State.setHcfg_himga : (s.setHcfg x).himga = s.himga := rfl
@[simp] theorem State.setHcfg_img : (s.setHcfg x).img = s.img := rfl
@[simp] theorem State.setHcfg_cur : (s.setHcfg x).cur = s.cur := rfl
@[simp] theorem State.setHcfg_pos : (s.setHcfg x).pos = s.pos := rfl
@[simp] theorem State.setHcfg_pollcnt : (s.setHcfg x).pollcnt = s.pollcnt := rfl
@[simp] theorem State.setHcfg_widx : (s.setHcfg x).widx = s.widx := rfl
@[simp] theorem State.setHcfg_pw : (s.setHcfg x).pw = s.pw := rfl
@[simp] theorem State.setHcfg_authByte : (s.setHcfg x).authByte = s.authByte := rfl
@[simp] theorem State.setHcfg_tmp : (s.setHcfg x).tmp = s.tmp := rfl
@[simp] theorem State.setHcfg_busReady : (s.setHcfg x).busReady = s.busReady := rfl
@[simp] theorem State.setHcfg_chipIn : (s.setHcfg x).chipIn = s.chipIn := rfl
@[simp] theorem State.setHcfg_fileIn : (s.setHcfg x).fileIn = s.fileIn := rfl
@[simp] theorem State.setHcfg_draws : (s.setHcfg x).draws = s.draws := rfl
@[simp] theorem State.setHcfg_host : (s.setHcfg x).host = s.host := rfl
@[simp] theorem State.setHcfg_trace : (s.setHcfg x).trace = s.trace := rfl
@[simp] theorem State.setHcfg_reads : (s.setHcfg x).reads = s.reads := rfl

end

section
variable (s : State) (x : Word32)

@[simp] theorem State.setHpoll_hcmd : (s.setHpoll x).hcmd = s.hcmd := rfl
@[simp] theorem State.setHpoll_hstat : (s.setHpoll x).hstat = s.hstat := rfl
@[simp] theorem State.setHpoll_hres0 : (s.setHpoll x).hres0 = s.hres0 := rfl
@[simp] theorem State.setHpoll_hres1 : (s.setHpoll x).hres1 = s.hres1 := rfl
@[simp] theorem State.setHpoll_hcfg : (s.setHpoll x).hcfg = s.hcfg := rfl
@[simp] theorem State.setHpoll_hpoll : (s.setHpoll x).hpoll = x := rfl
@[simp] theorem State.setHpoll_himga : (s.setHpoll x).himga = s.himga := rfl
@[simp] theorem State.setHpoll_img : (s.setHpoll x).img = s.img := rfl
@[simp] theorem State.setHpoll_cur : (s.setHpoll x).cur = s.cur := rfl
@[simp] theorem State.setHpoll_pos : (s.setHpoll x).pos = s.pos := rfl
@[simp] theorem State.setHpoll_pollcnt : (s.setHpoll x).pollcnt = s.pollcnt := rfl
@[simp] theorem State.setHpoll_widx : (s.setHpoll x).widx = s.widx := rfl
@[simp] theorem State.setHpoll_pw : (s.setHpoll x).pw = s.pw := rfl
@[simp] theorem State.setHpoll_authByte : (s.setHpoll x).authByte = s.authByte := rfl
@[simp] theorem State.setHpoll_tmp : (s.setHpoll x).tmp = s.tmp := rfl
@[simp] theorem State.setHpoll_busReady : (s.setHpoll x).busReady = s.busReady := rfl
@[simp] theorem State.setHpoll_chipIn : (s.setHpoll x).chipIn = s.chipIn := rfl
@[simp] theorem State.setHpoll_fileIn : (s.setHpoll x).fileIn = s.fileIn := rfl
@[simp] theorem State.setHpoll_draws : (s.setHpoll x).draws = s.draws := rfl
@[simp] theorem State.setHpoll_host : (s.setHpoll x).host = s.host := rfl
@[simp] theorem State.setHpoll_trace : (s.setHpoll x).trace = s.trace := rfl
@[simp] theorem State.setHpoll_reads : (s.setHpoll x).reads = s.reads := rfl

end

section
variable (s : State) (x : BitVec 7)

@[simp] theorem State.setHimga_hcmd : (s.setHimga x).hcmd = s.hcmd := rfl
@[simp] theorem State.setHimga_hstat : (s.setHimga x).hstat = s.hstat := rfl
@[simp] theorem State.setHimga_hres0 : (s.setHimga x).hres0 = s.hres0 := rfl
@[simp] theorem State.setHimga_hres1 : (s.setHimga x).hres1 = s.hres1 := rfl
@[simp] theorem State.setHimga_hcfg : (s.setHimga x).hcfg = s.hcfg := rfl
@[simp] theorem State.setHimga_hpoll : (s.setHimga x).hpoll = s.hpoll := rfl
@[simp] theorem State.setHimga_himga : (s.setHimga x).himga = x := rfl
@[simp] theorem State.setHimga_img : (s.setHimga x).img = s.img := rfl
@[simp] theorem State.setHimga_cur : (s.setHimga x).cur = s.cur := rfl
@[simp] theorem State.setHimga_pos : (s.setHimga x).pos = s.pos := rfl
@[simp] theorem State.setHimga_pollcnt : (s.setHimga x).pollcnt = s.pollcnt := rfl
@[simp] theorem State.setHimga_widx : (s.setHimga x).widx = s.widx := rfl
@[simp] theorem State.setHimga_pw : (s.setHimga x).pw = s.pw := rfl
@[simp] theorem State.setHimga_authByte : (s.setHimga x).authByte = s.authByte := rfl
@[simp] theorem State.setHimga_tmp : (s.setHimga x).tmp = s.tmp := rfl
@[simp] theorem State.setHimga_busReady : (s.setHimga x).busReady = s.busReady := rfl
@[simp] theorem State.setHimga_chipIn : (s.setHimga x).chipIn = s.chipIn := rfl
@[simp] theorem State.setHimga_fileIn : (s.setHimga x).fileIn = s.fileIn := rfl
@[simp] theorem State.setHimga_draws : (s.setHimga x).draws = s.draws := rfl
@[simp] theorem State.setHimga_host : (s.setHimga x).host = s.host := rfl
@[simp] theorem State.setHimga_trace : (s.setHimga x).trace = s.trace := rfl
@[simp] theorem State.setHimga_reads : (s.setHimga x).reads = s.reads := rfl

end

section
variable (s : State) (x : Memory)

@[simp] theorem State.setImg_hcmd : (s.setImg x).hcmd = s.hcmd := rfl
@[simp] theorem State.setImg_hstat : (s.setImg x).hstat = s.hstat := rfl
@[simp] theorem State.setImg_hres0 : (s.setImg x).hres0 = s.hres0 := rfl
@[simp] theorem State.setImg_hres1 : (s.setImg x).hres1 = s.hres1 := rfl
@[simp] theorem State.setImg_hcfg : (s.setImg x).hcfg = s.hcfg := rfl
@[simp] theorem State.setImg_hpoll : (s.setImg x).hpoll = s.hpoll := rfl
@[simp] theorem State.setImg_himga : (s.setImg x).himga = s.himga := rfl
@[simp] theorem State.setImg_img : (s.setImg x).img = x := rfl
@[simp] theorem State.setImg_cur : (s.setImg x).cur = s.cur := rfl
@[simp] theorem State.setImg_pos : (s.setImg x).pos = s.pos := rfl
@[simp] theorem State.setImg_pollcnt : (s.setImg x).pollcnt = s.pollcnt := rfl
@[simp] theorem State.setImg_widx : (s.setImg x).widx = s.widx := rfl
@[simp] theorem State.setImg_pw : (s.setImg x).pw = s.pw := rfl
@[simp] theorem State.setImg_authByte : (s.setImg x).authByte = s.authByte := rfl
@[simp] theorem State.setImg_tmp : (s.setImg x).tmp = s.tmp := rfl
@[simp] theorem State.setImg_busReady : (s.setImg x).busReady = s.busReady := rfl
@[simp] theorem State.setImg_chipIn : (s.setImg x).chipIn = s.chipIn := rfl
@[simp] theorem State.setImg_fileIn : (s.setImg x).fileIn = s.fileIn := rfl
@[simp] theorem State.setImg_draws : (s.setImg x).draws = s.draws := rfl
@[simp] theorem State.setImg_host : (s.setImg x).host = s.host := rfl
@[simp] theorem State.setImg_trace : (s.setImg x).trace = s.trace := rfl
@[simp] theorem State.setImg_reads : (s.setImg x).reads = s.reads := rfl

end

section
variable (s : State) (x : Word32)

@[simp] theorem State.setCur_hcmd : (s.setCur x).hcmd = s.hcmd := rfl
@[simp] theorem State.setCur_hstat : (s.setCur x).hstat = s.hstat := rfl
@[simp] theorem State.setCur_hres0 : (s.setCur x).hres0 = s.hres0 := rfl
@[simp] theorem State.setCur_hres1 : (s.setCur x).hres1 = s.hres1 := rfl
@[simp] theorem State.setCur_hcfg : (s.setCur x).hcfg = s.hcfg := rfl
@[simp] theorem State.setCur_hpoll : (s.setCur x).hpoll = s.hpoll := rfl
@[simp] theorem State.setCur_himga : (s.setCur x).himga = s.himga := rfl
@[simp] theorem State.setCur_img : (s.setCur x).img = s.img := rfl
@[simp] theorem State.setCur_cur : (s.setCur x).cur = x := rfl
@[simp] theorem State.setCur_pos : (s.setCur x).pos = s.pos := rfl
@[simp] theorem State.setCur_pollcnt : (s.setCur x).pollcnt = s.pollcnt := rfl
@[simp] theorem State.setCur_widx : (s.setCur x).widx = s.widx := rfl
@[simp] theorem State.setCur_pw : (s.setCur x).pw = s.pw := rfl
@[simp] theorem State.setCur_authByte : (s.setCur x).authByte = s.authByte := rfl
@[simp] theorem State.setCur_tmp : (s.setCur x).tmp = s.tmp := rfl
@[simp] theorem State.setCur_busReady : (s.setCur x).busReady = s.busReady := rfl
@[simp] theorem State.setCur_chipIn : (s.setCur x).chipIn = s.chipIn := rfl
@[simp] theorem State.setCur_fileIn : (s.setCur x).fileIn = s.fileIn := rfl
@[simp] theorem State.setCur_draws : (s.setCur x).draws = s.draws := rfl
@[simp] theorem State.setCur_host : (s.setCur x).host = s.host := rfl
@[simp] theorem State.setCur_trace : (s.setCur x).trace = s.trace := rfl
@[simp] theorem State.setCur_reads : (s.setCur x).reads = s.reads := rfl

end

section
variable (s : State) (x : Nat)

@[simp] theorem State.setPos_hcmd : (s.setPos x).hcmd = s.hcmd := rfl
@[simp] theorem State.setPos_hstat : (s.setPos x).hstat = s.hstat := rfl
@[simp] theorem State.setPos_hres0 : (s.setPos x).hres0 = s.hres0 := rfl
@[simp] theorem State.setPos_hres1 : (s.setPos x).hres1 = s.hres1 := rfl
@[simp] theorem State.setPos_hcfg : (s.setPos x).hcfg = s.hcfg := rfl
@[simp] theorem State.setPos_hpoll : (s.setPos x).hpoll = s.hpoll := rfl
@[simp] theorem State.setPos_himga : (s.setPos x).himga = s.himga := rfl
@[simp] theorem State.setPos_img : (s.setPos x).img = s.img := rfl
@[simp] theorem State.setPos_cur : (s.setPos x).cur = s.cur := rfl
@[simp] theorem State.setPos_pos : (s.setPos x).pos = x := rfl
@[simp] theorem State.setPos_pollcnt : (s.setPos x).pollcnt = s.pollcnt := rfl
@[simp] theorem State.setPos_widx : (s.setPos x).widx = s.widx := rfl
@[simp] theorem State.setPos_pw : (s.setPos x).pw = s.pw := rfl
@[simp] theorem State.setPos_authByte : (s.setPos x).authByte = s.authByte := rfl
@[simp] theorem State.setPos_tmp : (s.setPos x).tmp = s.tmp := rfl
@[simp] theorem State.setPos_busReady : (s.setPos x).busReady = s.busReady := rfl
@[simp] theorem State.setPos_chipIn : (s.setPos x).chipIn = s.chipIn := rfl
@[simp] theorem State.setPos_fileIn : (s.setPos x).fileIn = s.fileIn := rfl
@[simp] theorem State.setPos_draws : (s.setPos x).draws = s.draws := rfl
@[simp] theorem State.setPos_host : (s.setPos x).host = s.host := rfl
@[simp] theorem State.setPos_trace : (s.setPos x).trace = s.trace := rfl
@[simp] theorem State.setPos_reads : (s.setPos x).reads = s.reads := rfl

end

section
variable (s : State) (x : Word32)

@[simp] theorem State.setPollcnt_hcmd : (s.setPollcnt x).hcmd = s.hcmd := rfl
@[simp] theorem State.setPollcnt_hstat : (s.setPollcnt x).hstat = s.hstat := rfl
@[simp] theorem State.setPollcnt_hres0 : (s.setPollcnt x).hres0 = s.hres0 := rfl
@[simp] theorem State.setPollcnt_hres1 : (s.setPollcnt x).hres1 = s.hres1 := rfl
@[simp] theorem State.setPollcnt_hcfg : (s.setPollcnt x).hcfg = s.hcfg := rfl
@[simp] theorem State.setPollcnt_hpoll : (s.setPollcnt x).hpoll = s.hpoll := rfl
@[simp] theorem State.setPollcnt_himga : (s.setPollcnt x).himga = s.himga := rfl
@[simp] theorem State.setPollcnt_img : (s.setPollcnt x).img = s.img := rfl
@[simp] theorem State.setPollcnt_cur : (s.setPollcnt x).cur = s.cur := rfl
@[simp] theorem State.setPollcnt_pos : (s.setPollcnt x).pos = s.pos := rfl
@[simp] theorem State.setPollcnt_pollcnt : (s.setPollcnt x).pollcnt = x := rfl
@[simp] theorem State.setPollcnt_widx : (s.setPollcnt x).widx = s.widx := rfl
@[simp] theorem State.setPollcnt_pw : (s.setPollcnt x).pw = s.pw := rfl
@[simp] theorem State.setPollcnt_authByte : (s.setPollcnt x).authByte = s.authByte := rfl
@[simp] theorem State.setPollcnt_tmp : (s.setPollcnt x).tmp = s.tmp := rfl
@[simp] theorem State.setPollcnt_busReady : (s.setPollcnt x).busReady = s.busReady := rfl
@[simp] theorem State.setPollcnt_chipIn : (s.setPollcnt x).chipIn = s.chipIn := rfl
@[simp] theorem State.setPollcnt_fileIn : (s.setPollcnt x).fileIn = s.fileIn := rfl
@[simp] theorem State.setPollcnt_draws : (s.setPollcnt x).draws = s.draws := rfl
@[simp] theorem State.setPollcnt_host : (s.setPollcnt x).host = s.host := rfl
@[simp] theorem State.setPollcnt_trace : (s.setPollcnt x).trace = s.trace := rfl
@[simp] theorem State.setPollcnt_reads : (s.setPollcnt x).reads = s.reads := rfl

end

section
variable (s : State) (x : BitVec 7)

@[simp] theorem State.setWidx_hcmd : (s.setWidx x).hcmd = s.hcmd := rfl
@[simp] theorem State.setWidx_hstat : (s.setWidx x).hstat = s.hstat := rfl
@[simp] theorem State.setWidx_hres0 : (s.setWidx x).hres0 = s.hres0 := rfl
@[simp] theorem State.setWidx_hres1 : (s.setWidx x).hres1 = s.hres1 := rfl
@[simp] theorem State.setWidx_hcfg : (s.setWidx x).hcfg = s.hcfg := rfl
@[simp] theorem State.setWidx_hpoll : (s.setWidx x).hpoll = s.hpoll := rfl
@[simp] theorem State.setWidx_himga : (s.setWidx x).himga = s.himga := rfl
@[simp] theorem State.setWidx_img : (s.setWidx x).img = s.img := rfl
@[simp] theorem State.setWidx_cur : (s.setWidx x).cur = s.cur := rfl
@[simp] theorem State.setWidx_pos : (s.setWidx x).pos = s.pos := rfl
@[simp] theorem State.setWidx_pollcnt : (s.setWidx x).pollcnt = s.pollcnt := rfl
@[simp] theorem State.setWidx_widx : (s.setWidx x).widx = x := rfl
@[simp] theorem State.setWidx_pw : (s.setWidx x).pw = s.pw := rfl
@[simp] theorem State.setWidx_authByte : (s.setWidx x).authByte = s.authByte := rfl
@[simp] theorem State.setWidx_tmp : (s.setWidx x).tmp = s.tmp := rfl
@[simp] theorem State.setWidx_busReady : (s.setWidx x).busReady = s.busReady := rfl
@[simp] theorem State.setWidx_chipIn : (s.setWidx x).chipIn = s.chipIn := rfl
@[simp] theorem State.setWidx_fileIn : (s.setWidx x).fileIn = s.fileIn := rfl
@[simp] theorem State.setWidx_draws : (s.setWidx x).draws = s.draws := rfl
@[simp] theorem State.setWidx_host : (s.setWidx x).host = s.host := rfl
@[simp] theorem State.setWidx_trace : (s.setWidx x).trace = s.trace := rfl
@[simp] theorem State.setWidx_reads : (s.setWidx x).reads = s.reads := rfl

end

section
variable (s : State) (x : Word16)

@[simp] theorem State.setPw_hcmd : (s.setPw x).hcmd = s.hcmd := rfl
@[simp] theorem State.setPw_hstat : (s.setPw x).hstat = s.hstat := rfl
@[simp] theorem State.setPw_hres0 : (s.setPw x).hres0 = s.hres0 := rfl
@[simp] theorem State.setPw_hres1 : (s.setPw x).hres1 = s.hres1 := rfl
@[simp] theorem State.setPw_hcfg : (s.setPw x).hcfg = s.hcfg := rfl
@[simp] theorem State.setPw_hpoll : (s.setPw x).hpoll = s.hpoll := rfl
@[simp] theorem State.setPw_himga : (s.setPw x).himga = s.himga := rfl
@[simp] theorem State.setPw_img : (s.setPw x).img = s.img := rfl
@[simp] theorem State.setPw_cur : (s.setPw x).cur = s.cur := rfl
@[simp] theorem State.setPw_pos : (s.setPw x).pos = s.pos := rfl
@[simp] theorem State.setPw_pollcnt : (s.setPw x).pollcnt = s.pollcnt := rfl
@[simp] theorem State.setPw_widx : (s.setPw x).widx = s.widx := rfl
@[simp] theorem State.setPw_pw : (s.setPw x).pw = x := rfl
@[simp] theorem State.setPw_authByte : (s.setPw x).authByte = s.authByte := rfl
@[simp] theorem State.setPw_tmp : (s.setPw x).tmp = s.tmp := rfl
@[simp] theorem State.setPw_busReady : (s.setPw x).busReady = s.busReady := rfl
@[simp] theorem State.setPw_chipIn : (s.setPw x).chipIn = s.chipIn := rfl
@[simp] theorem State.setPw_fileIn : (s.setPw x).fileIn = s.fileIn := rfl
@[simp] theorem State.setPw_draws : (s.setPw x).draws = s.draws := rfl
@[simp] theorem State.setPw_host : (s.setPw x).host = s.host := rfl
@[simp] theorem State.setPw_trace : (s.setPw x).trace = s.trace := rfl
@[simp] theorem State.setPw_reads : (s.setPw x).reads = s.reads := rfl

end

section
variable (s : State) (x : Byte)

@[simp] theorem State.setAuthByte_hcmd : (s.setAuthByte x).hcmd = s.hcmd := rfl
@[simp] theorem State.setAuthByte_hstat : (s.setAuthByte x).hstat = s.hstat := rfl
@[simp] theorem State.setAuthByte_hres0 : (s.setAuthByte x).hres0 = s.hres0 := rfl
@[simp] theorem State.setAuthByte_hres1 : (s.setAuthByte x).hres1 = s.hres1 := rfl
@[simp] theorem State.setAuthByte_hcfg : (s.setAuthByte x).hcfg = s.hcfg := rfl
@[simp] theorem State.setAuthByte_hpoll : (s.setAuthByte x).hpoll = s.hpoll := rfl
@[simp] theorem State.setAuthByte_himga : (s.setAuthByte x).himga = s.himga := rfl
@[simp] theorem State.setAuthByte_img : (s.setAuthByte x).img = s.img := rfl
@[simp] theorem State.setAuthByte_cur : (s.setAuthByte x).cur = s.cur := rfl
@[simp] theorem State.setAuthByte_pos : (s.setAuthByte x).pos = s.pos := rfl
@[simp] theorem State.setAuthByte_pollcnt : (s.setAuthByte x).pollcnt = s.pollcnt := rfl
@[simp] theorem State.setAuthByte_widx : (s.setAuthByte x).widx = s.widx := rfl
@[simp] theorem State.setAuthByte_pw : (s.setAuthByte x).pw = s.pw := rfl
@[simp] theorem State.setAuthByte_authByte : (s.setAuthByte x).authByte = x := rfl
@[simp] theorem State.setAuthByte_tmp : (s.setAuthByte x).tmp = s.tmp := rfl
@[simp] theorem State.setAuthByte_busReady : (s.setAuthByte x).busReady = s.busReady := rfl
@[simp] theorem State.setAuthByte_chipIn : (s.setAuthByte x).chipIn = s.chipIn := rfl
@[simp] theorem State.setAuthByte_fileIn : (s.setAuthByte x).fileIn = s.fileIn := rfl
@[simp] theorem State.setAuthByte_draws : (s.setAuthByte x).draws = s.draws := rfl
@[simp] theorem State.setAuthByte_host : (s.setAuthByte x).host = s.host := rfl
@[simp] theorem State.setAuthByte_trace : (s.setAuthByte x).trace = s.trace := rfl
@[simp] theorem State.setAuthByte_reads : (s.setAuthByte x).reads = s.reads := rfl

end

section
variable (s : State) (x : Temps)

@[simp] theorem State.setTmp_hcmd : (s.setTmp x).hcmd = s.hcmd := rfl
@[simp] theorem State.setTmp_hstat : (s.setTmp x).hstat = s.hstat := rfl
@[simp] theorem State.setTmp_hres0 : (s.setTmp x).hres0 = s.hres0 := rfl
@[simp] theorem State.setTmp_hres1 : (s.setTmp x).hres1 = s.hres1 := rfl
@[simp] theorem State.setTmp_hcfg : (s.setTmp x).hcfg = s.hcfg := rfl
@[simp] theorem State.setTmp_hpoll : (s.setTmp x).hpoll = s.hpoll := rfl
@[simp] theorem State.setTmp_himga : (s.setTmp x).himga = s.himga := rfl
@[simp] theorem State.setTmp_img : (s.setTmp x).img = s.img := rfl
@[simp] theorem State.setTmp_cur : (s.setTmp x).cur = s.cur := rfl
@[simp] theorem State.setTmp_pos : (s.setTmp x).pos = s.pos := rfl
@[simp] theorem State.setTmp_pollcnt : (s.setTmp x).pollcnt = s.pollcnt := rfl
@[simp] theorem State.setTmp_widx : (s.setTmp x).widx = s.widx := rfl
@[simp] theorem State.setTmp_pw : (s.setTmp x).pw = s.pw := rfl
@[simp] theorem State.setTmp_authByte : (s.setTmp x).authByte = s.authByte := rfl
@[simp] theorem State.setTmp_tmp : (s.setTmp x).tmp = x := rfl
@[simp] theorem State.setTmp_busReady : (s.setTmp x).busReady = s.busReady := rfl
@[simp] theorem State.setTmp_chipIn : (s.setTmp x).chipIn = s.chipIn := rfl
@[simp] theorem State.setTmp_fileIn : (s.setTmp x).fileIn = s.fileIn := rfl
@[simp] theorem State.setTmp_draws : (s.setTmp x).draws = s.draws := rfl
@[simp] theorem State.setTmp_host : (s.setTmp x).host = s.host := rfl
@[simp] theorem State.setTmp_trace : (s.setTmp x).trace = s.trace := rfl
@[simp] theorem State.setTmp_reads : (s.setTmp x).reads = s.reads := rfl

end

section
variable (s : State) (x : Bool)

@[simp] theorem State.setBusReady_hcmd : (s.setBusReady x).hcmd = s.hcmd := rfl
@[simp] theorem State.setBusReady_hstat : (s.setBusReady x).hstat = s.hstat := rfl
@[simp] theorem State.setBusReady_hres0 : (s.setBusReady x).hres0 = s.hres0 := rfl
@[simp] theorem State.setBusReady_hres1 : (s.setBusReady x).hres1 = s.hres1 := rfl
@[simp] theorem State.setBusReady_hcfg : (s.setBusReady x).hcfg = s.hcfg := rfl
@[simp] theorem State.setBusReady_hpoll : (s.setBusReady x).hpoll = s.hpoll := rfl
@[simp] theorem State.setBusReady_himga : (s.setBusReady x).himga = s.himga := rfl
@[simp] theorem State.setBusReady_img : (s.setBusReady x).img = s.img := rfl
@[simp] theorem State.setBusReady_cur : (s.setBusReady x).cur = s.cur := rfl
@[simp] theorem State.setBusReady_pos : (s.setBusReady x).pos = s.pos := rfl
@[simp] theorem State.setBusReady_pollcnt : (s.setBusReady x).pollcnt = s.pollcnt := rfl
@[simp] theorem State.setBusReady_widx : (s.setBusReady x).widx = s.widx := rfl
@[simp] theorem State.setBusReady_pw : (s.setBusReady x).pw = s.pw := rfl
@[simp] theorem State.setBusReady_authByte : (s.setBusReady x).authByte = s.authByte := rfl
@[simp] theorem State.setBusReady_tmp : (s.setBusReady x).tmp = s.tmp := rfl
@[simp] theorem State.setBusReady_busReady : (s.setBusReady x).busReady = x := rfl
@[simp] theorem State.setBusReady_chipIn : (s.setBusReady x).chipIn = s.chipIn := rfl
@[simp] theorem State.setBusReady_fileIn : (s.setBusReady x).fileIn = s.fileIn := rfl
@[simp] theorem State.setBusReady_draws : (s.setBusReady x).draws = s.draws := rfl
@[simp] theorem State.setBusReady_host : (s.setBusReady x).host = s.host := rfl
@[simp] theorem State.setBusReady_trace : (s.setBusReady x).trace = s.trace := rfl
@[simp] theorem State.setBusReady_reads : (s.setBusReady x).reads = s.reads := rfl

end

section
variable (s : State) (x : List BusAnswer)

@[simp] theorem State.setChipIn_hcmd : (s.setChipIn x).hcmd = s.hcmd := rfl
@[simp] theorem State.setChipIn_hstat : (s.setChipIn x).hstat = s.hstat := rfl
@[simp] theorem State.setChipIn_hres0 : (s.setChipIn x).hres0 = s.hres0 := rfl
@[simp] theorem State.setChipIn_hres1 : (s.setChipIn x).hres1 = s.hres1 := rfl
@[simp] theorem State.setChipIn_hcfg : (s.setChipIn x).hcfg = s.hcfg := rfl
@[simp] theorem State.setChipIn_hpoll : (s.setChipIn x).hpoll = s.hpoll := rfl
@[simp] theorem State.setChipIn_himga : (s.setChipIn x).himga = s.himga := rfl
@[simp] theorem State.setChipIn_img : (s.setChipIn x).img = s.img := rfl
@[simp] theorem State.setChipIn_cur : (s.setChipIn x).cur = s.cur := rfl
@[simp] theorem State.setChipIn_pos : (s.setChipIn x).pos = s.pos := rfl
@[simp] theorem State.setChipIn_pollcnt : (s.setChipIn x).pollcnt = s.pollcnt := rfl
@[simp] theorem State.setChipIn_widx : (s.setChipIn x).widx = s.widx := rfl
@[simp] theorem State.setChipIn_pw : (s.setChipIn x).pw = s.pw := rfl
@[simp] theorem State.setChipIn_authByte : (s.setChipIn x).authByte = s.authByte := rfl
@[simp] theorem State.setChipIn_tmp : (s.setChipIn x).tmp = s.tmp := rfl
@[simp] theorem State.setChipIn_busReady : (s.setChipIn x).busReady = s.busReady := rfl
@[simp] theorem State.setChipIn_chipIn : (s.setChipIn x).chipIn = x := rfl
@[simp] theorem State.setChipIn_fileIn : (s.setChipIn x).fileIn = s.fileIn := rfl
@[simp] theorem State.setChipIn_draws : (s.setChipIn x).draws = s.draws := rfl
@[simp] theorem State.setChipIn_host : (s.setChipIn x).host = s.host := rfl
@[simp] theorem State.setChipIn_trace : (s.setChipIn x).trace = s.trace := rfl
@[simp] theorem State.setChipIn_reads : (s.setChipIn x).reads = s.reads := rfl

end

section
variable (s : State) (x : List FileAnswer)

@[simp] theorem State.setFileIn_hcmd : (s.setFileIn x).hcmd = s.hcmd := rfl
@[simp] theorem State.setFileIn_hstat : (s.setFileIn x).hstat = s.hstat := rfl
@[simp] theorem State.setFileIn_hres0 : (s.setFileIn x).hres0 = s.hres0 := rfl
@[simp] theorem State.setFileIn_hres1 : (s.setFileIn x).hres1 = s.hres1 := rfl
@[simp] theorem State.setFileIn_hcfg : (s.setFileIn x).hcfg = s.hcfg := rfl
@[simp] theorem State.setFileIn_hpoll : (s.setFileIn x).hpoll = s.hpoll := rfl
@[simp] theorem State.setFileIn_himga : (s.setFileIn x).himga = s.himga := rfl
@[simp] theorem State.setFileIn_img : (s.setFileIn x).img = s.img := rfl
@[simp] theorem State.setFileIn_cur : (s.setFileIn x).cur = s.cur := rfl
@[simp] theorem State.setFileIn_pos : (s.setFileIn x).pos = s.pos := rfl
@[simp] theorem State.setFileIn_pollcnt : (s.setFileIn x).pollcnt = s.pollcnt := rfl
@[simp] theorem State.setFileIn_widx : (s.setFileIn x).widx = s.widx := rfl
@[simp] theorem State.setFileIn_pw : (s.setFileIn x).pw = s.pw := rfl
@[simp] theorem State.setFileIn_authByte : (s.setFileIn x).authByte = s.authByte := rfl
@[simp] theorem State.setFileIn_tmp : (s.setFileIn x).tmp = s.tmp := rfl
@[simp] theorem State.setFileIn_busReady : (s.setFileIn x).busReady = s.busReady := rfl
@[simp] theorem State.setFileIn_chipIn : (s.setFileIn x).chipIn = s.chipIn := rfl
@[simp] theorem State.setFileIn_fileIn : (s.setFileIn x).fileIn = x := rfl
@[simp] theorem State.setFileIn_draws : (s.setFileIn x).draws = s.draws := rfl
@[simp] theorem State.setFileIn_host : (s.setFileIn x).host = s.host := rfl
@[simp] theorem State.setFileIn_trace : (s.setFileIn x).trace = s.trace := rfl
@[simp] theorem State.setFileIn_reads : (s.setFileIn x).reads = s.reads := rfl

end

section
variable (s : State) (x : Nat)

@[simp] theorem State.setDraws_hcmd : (s.setDraws x).hcmd = s.hcmd := rfl
@[simp] theorem State.setDraws_hstat : (s.setDraws x).hstat = s.hstat := rfl
@[simp] theorem State.setDraws_hres0 : (s.setDraws x).hres0 = s.hres0 := rfl
@[simp] theorem State.setDraws_hres1 : (s.setDraws x).hres1 = s.hres1 := rfl
@[simp] theorem State.setDraws_hcfg : (s.setDraws x).hcfg = s.hcfg := rfl
@[simp] theorem State.setDraws_hpoll : (s.setDraws x).hpoll = s.hpoll := rfl
@[simp] theorem State.setDraws_himga : (s.setDraws x).himga = s.himga := rfl
@[simp] theorem State.setDraws_img : (s.setDraws x).img = s.img := rfl
@[simp] theorem State.setDraws_cur : (s.setDraws x).cur = s.cur := rfl
@[simp] theorem State.setDraws_pos : (s.setDraws x).pos = s.pos := rfl
@[simp] theorem State.setDraws_pollcnt : (s.setDraws x).pollcnt = s.pollcnt := rfl
@[simp] theorem State.setDraws_widx : (s.setDraws x).widx = s.widx := rfl
@[simp] theorem State.setDraws_pw : (s.setDraws x).pw = s.pw := rfl
@[simp] theorem State.setDraws_authByte : (s.setDraws x).authByte = s.authByte := rfl
@[simp] theorem State.setDraws_tmp : (s.setDraws x).tmp = s.tmp := rfl
@[simp] theorem State.setDraws_busReady : (s.setDraws x).busReady = s.busReady := rfl
@[simp] theorem State.setDraws_chipIn : (s.setDraws x).chipIn = s.chipIn := rfl
@[simp] theorem State.setDraws_fileIn : (s.setDraws x).fileIn = s.fileIn := rfl
@[simp] theorem State.setDraws_draws : (s.setDraws x).draws = x := rfl
@[simp] theorem State.setDraws_host : (s.setDraws x).host = s.host := rfl
@[simp] theorem State.setDraws_trace : (s.setDraws x).trace = s.trace := rfl
@[simp] theorem State.setDraws_reads : (s.setDraws x).reads = s.reads := rfl

end

section
variable (s : State) (x : List HostAct)

@[simp] theorem State.setHost_hcmd : (s.setHost x).hcmd = s.hcmd := rfl
@[simp] theorem State.setHost_hstat : (s.setHost x).hstat = s.hstat := rfl
@[simp] theorem State.setHost_hres0 : (s.setHost x).hres0 = s.hres0 := rfl
@[simp] theorem State.setHost_hres1 : (s.setHost x).hres1 = s.hres1 := rfl
@[simp] theorem State.setHost_hcfg : (s.setHost x).hcfg = s.hcfg := rfl
@[simp] theorem State.setHost_hpoll : (s.setHost x).hpoll = s.hpoll := rfl
@[simp] theorem State.setHost_himga : (s.setHost x).himga = s.himga := rfl
@[simp] theorem State.setHost_img : (s.setHost x).img = s.img := rfl
@[simp] theorem State.setHost_cur : (s.setHost x).cur = s.cur := rfl
@[simp] theorem State.setHost_pos : (s.setHost x).pos = s.pos := rfl
@[simp] theorem State.setHost_pollcnt : (s.setHost x).pollcnt = s.pollcnt := rfl
@[simp] theorem State.setHost_widx : (s.setHost x).widx = s.widx := rfl
@[simp] theorem State.setHost_pw : (s.setHost x).pw = s.pw := rfl
@[simp] theorem State.setHost_authByte : (s.setHost x).authByte = s.authByte := rfl
@[simp] theorem State.setHost_tmp : (s.setHost x).tmp = s.tmp := rfl
@[simp] theorem State.setHost_busReady : (s.setHost x).busReady = s.busReady := rfl
@[simp] theorem State.setHost_chipIn : (s.setHost x).chipIn = s.chipIn := rfl
@[simp] theorem State.setHost_fileIn : (s.setHost x).fileIn = s.fileIn := rfl
@[simp] theorem State.setHost_draws : (s.setHost x).draws = s.draws := rfl
@[simp] theorem State.setHost_host : (s.setHost x).host = x := rfl
@[simp] theorem State.setHost_trace : (s.setHost x).trace = s.trace := rfl
@[simp] theorem State.setHost_reads : (s.setHost x).reads = s.reads := rfl

end

section
variable (s : State) (x : List Request)

@[simp] theorem State.setTrace_hcmd : (s.setTrace x).hcmd = s.hcmd := rfl
@[simp] theorem State.setTrace_hstat : (s.setTrace x).hstat = s.hstat := rfl
@[simp] theorem State.setTrace_hres0 : (s.setTrace x).hres0 = s.hres0 := rfl
@[simp] theorem State.setTrace_hres1 : (s.setTrace x).hres1 = s.hres1 := rfl
@[simp] theorem State.setTrace_hcfg : (s.setTrace x).hcfg = s.hcfg := rfl
@[simp] theorem State.setTrace_hpoll : (s.setTrace x).hpoll = s.hpoll := rfl
@[simp] theorem State.setTrace_himga : (s.setTrace x).himga = s.himga := rfl
@[simp] theorem State.setTrace_img : (s.setTrace x).img = s.img := rfl
@[simp] theorem State.setTrace_cur : (s.setTrace x).cur = s.cur := rfl
@[simp] theorem State.setTrace_pos : (s.setTrace x).pos = s.pos := rfl
@[simp] theorem State.setTrace_pollcnt : (s.setTrace x).pollcnt = s.pollcnt := rfl
@[simp] theorem State.setTrace_widx : (s.setTrace x).widx = s.widx := rfl
@[simp] theorem State.setTrace_pw : (s.setTrace x).pw = s.pw := rfl
@[simp] theorem State.setTrace_authByte : (s.setTrace x).authByte = s.authByte := rfl
@[simp] theorem State.setTrace_tmp : (s.setTrace x).tmp = s.tmp := rfl
@[simp] theorem State.setTrace_busReady : (s.setTrace x).busReady = s.busReady := rfl
@[simp] theorem State.setTrace_chipIn : (s.setTrace x).chipIn = s.chipIn := rfl
@[simp] theorem State.setTrace_fileIn : (s.setTrace x).fileIn = s.fileIn := rfl
@[simp] theorem State.setTrace_draws : (s.setTrace x).draws = s.draws := rfl
@[simp] theorem State.setTrace_host : (s.setTrace x).host = s.host := rfl
@[simp] theorem State.setTrace_trace : (s.setTrace x).trace = x := rfl
@[simp] theorem State.setTrace_reads : (s.setTrace x).reads = s.reads := rfl

end

section
variable (s : State) (x : List Word32)

@[simp] theorem State.setReads_hcmd : (s.setReads x).hcmd = s.hcmd := rfl
@[simp] theorem State.setReads_hstat : (s.setReads x).hstat = s.hstat := rfl
@[simp] theorem State.setReads_hres0 : (s.setReads x).hres0 = s.hres0 := rfl
@[simp] theorem State.setReads_hres1 : (s.setReads x).hres1 = s.hres1 := rfl
@[simp] theorem State.setReads_hcfg : (s.setReads x).hcfg = s.hcfg := rfl
@[simp] theorem State.setReads_hpoll : (s.setReads x).hpoll = s.hpoll := rfl
@[simp] theorem State.setReads_himga : (s.setReads x).himga = s.himga := rfl
@[simp] theorem State.setReads_img : (s.setReads x).img = s.img := rfl
@[simp] theorem State.setReads_cur : (s.setReads x).cur = s.cur := rfl
@[simp] theorem State.setReads_pos : (s.setReads x).pos = s.pos := rfl
@[simp] theorem State.setReads_pollcnt : (s.setReads x).pollcnt = s.pollcnt := rfl
@[simp] theorem State.setReads_widx : (s.setReads x).widx = s.widx := rfl
@[simp] theorem State.setReads_pw : (s.setReads x).pw = s.pw := rfl
@[simp] theorem State.setReads_authByte : (s.setReads x).authByte = s.authByte := rfl
@[simp] theorem State.setReads_tmp : (s.setReads x).tmp = s.tmp := rfl
@[simp] theorem State.setReads_busReady : (s.setReads x).busReady = s.busReady := rfl
@[simp] theorem State.setReads_chipIn : (s.setReads x).chipIn = s.chipIn := rfl
@[simp] theorem State.setReads_fileIn : (s.setReads x).fileIn = s.fileIn := rfl
@[simp] theorem State.setReads_draws : (s.setReads x).draws = s.draws := rfl
@[simp] theorem State.setReads_host : (s.setReads x).host = s.host := rfl
@[simp] theorem State.setReads_trace : (s.setReads x).trace = s.trace := rfl
@[simp] theorem State.setReads_reads : (s.setReads x).reads = x := rfl

end

end Sys2Proof.Machine
end

