-- ==== Sys2Proof/Laws/Memory.lean ====
section
/-! SUPPORT. IMG: a read after a write, and that every operation keeps the canonical form (10_state R36, R37). -/

namespace Sys2Proof.Machine

/-! ### Reading -/

theorem Memory.read_put (m : Memory) (a : Nat) (v : Byte) (j : Nat) :
    (m.put a v).read j = if j = a then some v else m.read j := by
  induction m with
  | nil => rfl
  | cons c rest ih =>
    obtain ⟨b, u⟩ := c
    unfold Memory.put
    by_cases h1 : a < b
    · rw [if_pos h1]
      rfl
    · by_cases h2 : a = b
      · subst h2
        simp only [h1, if_false, if_true, Memory.read]
        split <;> simp_all
      · simp only [h1, h2, if_false, Memory.read, ih]
        by_cases h3 : j = b
        · rw [if_pos h3, if_pos h3, if_neg (by omega)]
        · rw [if_neg h3, if_neg h3]

theorem Memory.read_write (m : Memory) {a : Nat} (v : Byte) (j : Nat) (h : a < imageSize) :
    (m.write a v).read j = if j = a then some v else m.read j := by
  rw [Memory.write, if_pos h, Memory.read_put]

/-- Every byte after a store of consecutive bytes inside IMG. -/
theorem Memory.read_writeAll (bytes : List Byte) (m : Memory) (a j : Nat) (h : a + bytes.length ≤ imageSize) :
    (m.writeAll a bytes).read j =
      if a ≤ j ∧ j < a + bytes.length then some (bytes.getD (j - a) 0) else m.read j := by
  induction bytes generalizing m a with
  | nil => simp [Memory.writeAll]
  | cons v rest ih =>
    simp only [List.length_cons] at h ⊢
    rw [Memory.writeAll, ih _ _ (by omega), Memory.read_write _ _ _ (by omega)]
    by_cases h1 : j = a
    · subst h1
      simp
    · by_cases h2 : a + 1 ≤ j ∧ j < a + 1 + rest.length
      · obtain ⟨k, rfl⟩ : ∃ k, j = a + 1 + k := ⟨j - (a + 1), by omega⟩
        rw [if_pos h2, if_pos (by omega), show a + 1 + k - (a + 1) = k by omega, show a + 1 + k - a = k + 1 by omega,
          List.getD_cons_succ]
      · rw [if_neg h2, if_neg h1, if_neg (by omega)]

theorem Memory.valid_iff (m : Memory) (a : Nat) : m.valid a = true ↔ ∃ b, m.read a = some b := by
  simp [Memory.valid, Option.isSome_iff_exists]

theorem Memory.complete_iff (m : Memory) : m.complete = true ↔ ∀ j < imageSize, ∃ b, m.read j = some b := by
  simp [Memory.complete, Memory.valid_iff]

theorem State.imgByte_of_read {s : State} {a : Nat} {b : Byte} (h : s.img.read a = some b) : s.imgByte a = b := by
  simp [State.imgByte, h]

/-! ### The canonical form -/

/-- Every key of a memory after put is the new one or an old one. -/
theorem Memory.mem_put {m : Memory} {a : Nat} {v : Byte} {c : Host.Cell} (h : c ∈ m.put a v) :
    c = (a, v) ∨ c ∈ m := by
  induction m with
  | nil => simpa [Memory.put] using h
  | cons d rest ih =>
    obtain ⟨b, u⟩ := d
    unfold Memory.put at h
    split at h
    · simpa using h
    · split at h <;> simp only [List.mem_cons] at h ⊢
      · tauto
      · rcases h with h | h
        · exact .inr (.inl h)
        · rcases ih h with h | h <;> tauto

theorem Memory.wf_put {m : Memory} (hm : m.wf) {a : Nat} (v : Byte) (ha : a < imageSize) : (m.put a v).wf := by
  refine ⟨?_, fun c hc => ?_⟩
  · have hs : m.Pairwise (fun x y => x.1 < y.1) := List.pairwise_map.mp hm.1
    refine List.pairwise_map.mpr ?_
    clear hm
    induction m with
    | nil => simp [Memory.put]
    | cons d rest ih =>
      obtain ⟨b, u⟩ := d
      obtain ⟨h1, h2⟩ := List.pairwise_cons.mp hs
      unfold Memory.put
      split
      · rename_i hlt
        refine List.pairwise_cons.mpr ⟨fun c hc => ?_, hs⟩
        rcases List.mem_cons.mp hc with rfl | hc
        · exact hlt
        · exact lt_trans hlt (h1 c hc)
      · split
        · rename_i _ he
          exact List.pairwise_cons.mpr ⟨fun c hc => he ▸ h1 c hc, h2⟩
        · refine List.pairwise_cons.mpr ⟨fun c hc => ?_, ih h2⟩
          rcases Memory.mem_put hc with rfl | hc
          · change b < a
            omega
          · exact h1 c hc
  · rcases Memory.mem_put hc with rfl | hc
    · exact ha
    · exact hm.2 c hc

theorem Memory.wf_write {m : Memory} (hm : m.wf) (a : Nat) (v : Byte) : (m.write a v).wf := by
  unfold Memory.write
  split
  · exact Memory.wf_put hm v ‹_›
  · exact hm

theorem Memory.wf_writeAll (bytes : List Byte) {m : Memory} (hm : m.wf) (a : Nat) : (m.writeAll a bytes).wf := by
  induction bytes generalizing m a with
  | nil => exact hm
  | cons v rest ih => exact ih (Memory.wf_write hm a v) (a + 1)

/-- `MemWrite` keeps the canonical form. -/
theorem State.memWrite_wf {s : State} (h : s.img.wf) (a : Nat) (bytes : List Byte) : (s.memWrite a bytes).img.wf :=
  Memory.wf_writeAll bytes h a

theorem State.reset_img_wf : State.reset.img.wf := by decide

/-- Below the first key of a rising memory nothing is listed. -/
theorem Memory.read_of_lt {m : Memory} {a : Nat} (h : ∀ c ∈ m, a < c.1) : m.read a = none := by
  induction m with
  | nil => rfl
  | cons c rest ih =>
    have h1 := h c List.mem_cons_self
    rw [Memory.read, if_neg (by omega)]
    exact ih fun d hd => h d (List.mem_cons_of_mem c hd)

/-- Equal memories are equal data: in canonical form the contents decide the list. -/
theorem Memory.ext_of_rising : ∀ {m n : Memory}, m.Pairwise (fun x y => x.1 < y.1) →
    n.Pairwise (fun x y => x.1 < y.1) → (∀ j, m.read j = n.read j) → m = n
  | [], [], _, _, _ => rfl
  | [], (b, u) :: _, _, _, h => by simpa [Memory.read] using h b
  | (b, u) :: _, [], _, _, h => by simpa [Memory.read] using h b
  | (b, u) :: m, (c, v) :: n, hm, hn, h => by
    obtain ⟨hm1, hm2⟩ := List.pairwise_cons.mp hm
    obtain ⟨hn1, hn2⟩ := List.pairwise_cons.mp hn
    have hbc : b = c := by
      rcases lt_trichotomy b c with hlt | he | hlt
      · have := h b
        rw [Memory.read_of_lt (m := (c, v) :: n) (a := b)] at this
        · simp [Memory.read] at this
        · intro d hd
          rcases List.mem_cons.mp hd with rfl | hd
          · exact hlt
          · exact lt_trans hlt (hn1 d hd)
      · exact he
      · have := h c
        rw [Memory.read_of_lt (m := (b, u) :: m) (a := c)] at this
        · simp [Memory.read] at this
        · intro d hd
          rcases List.mem_cons.mp hd with rfl | hd
          · exact hlt
          · exact lt_trans hlt (hm1 d hd)
    subst hbc
    have huv : u = v := by simpa [Memory.read] using h b
    subst huv
    refine congrArg _ (Memory.ext_of_rising hm2 hn2 fun j => ?_)
    have hj := h j
    simp only [Memory.read] at hj
    split at hj
    · rename_i he
      subst he
      rw [Memory.read_of_lt hm1, Memory.read_of_lt hn1]
    · exact hj

theorem Memory.ext_of_wf {m n : Memory} (hm : m.wf) (hn : n.wf) (h : ∀ j, m.read j = n.read j) : m = n :=
  Memory.ext_of_rising (List.pairwise_map.mp hm.1) (List.pairwise_map.mp hn.1) h

end Sys2Proof.Machine
end

