-- ==== Sys2Proof/Laws/Run.lean ====
section
/-! SUPPORT. What the sequencer's shared operations do while the host side lists nothing: one lemma per kind of line,
then one per sub-procedure (Wait, Lock, EeRead, EeWrite), each saying which state the next line starts in. -/

namespace Sys2Proof.Machine

section
variable {s : State} {rest : List MicroOp}

/-! ### The small lemmas of the shared operations -/

theorem endTurn_of_host_nil (h : s.host = []) : s.endTurn = s := by
  unfold State.endTurn
  rw [h]

theorem nextBus_of_cons {a : BusAnswer} {r : List BusAnswer} (h : s.chipIn = a :: r) : s.nextBus = a := by
  unfold State.nextBus
  rw [h]

theorem dropBus_of_cons {a : BusAnswer} {r : List BusAnswer} (h : s.chipIn = a :: r) :
    s.dropBus = s.setChipIn r := by
  unfold State.dropBus
  rw [h]

theorem nextFile_of_cons {a : FileAnswer} {r : List FileAnswer} (h : s.fileIn = a :: r) : s.nextFile = a := by
  unfold State.nextFile
  rw [h]

theorem dropFile_of_cons {a : FileAnswer} {r : List FileAnswer} (h : s.fileIn = a :: r) :
    s.dropFile = s.setFileIn r := by
  unfold State.dropFile
  rw [h]

/-! ### One line -/

/-- A line that advances, while the host side lists nothing, leads to the next line. -/
theorem runOps_advance {op : MicroOp} {t : State} (hop : op.perform s = .advance t) (ht : t.host = []) :
    runOps (op :: rest) s = runOps rest t.bump := by
  simp [runOps, hop, ht]

/-- A line that completes the command is its last. -/
theorem runOps_ended {op : MicroOp} {t : State} (hop : op.perform s = .ended t) :
    runOps (op :: rest) s = t.endTurn := by
  simp [runOps, hop]

/-- A busy poll ends the turn where it stands. -/
theorem runOps_again {op : MicroOp} {t : State} (hop : op.perform s = .again t) :
    runOps (op :: rest) s = t.endTurn := by
  simp [runOps, hop]

theorem runOps_act {f : State → State} (h : (f s).host = []) :
    runOps (act f :: rest) s = runOps rest (f s).bump :=
  runOps_advance (op := act f) rfl h

theorem runOps_compute_ok {f : State → Except ErrCode State} {t : State} (hf : f s = .ok t) (h : t.host = []) :
    runOps (.compute f :: rest) s = runOps rest t.bump :=
  runOps_advance (by simp [MicroOp.perform, hf]) h

theorem runOps_compute_error {f : State → Except ErrCode State} {code : ErrCode} (hf : f s = .error code)
    (h : s.host = []) : runOps (.compute f :: rest) s = s.raise code := by
  rw [runOps_ended (t := s.raise code) (by simp [MicroOp.perform, hf]), endTurn_of_host_nil]
  simp [State.raise, h]

theorem runOps_require_ok {p : State → Bool} {code : ErrCode} (hp : p s = true) (h : s.host = []) :
    runOps (require p code :: rest) s = runOps rest s.bump :=
  runOps_compute_ok (by simp [hp]) h

theorem runOps_require_fails {p : State → Bool} {code : ErrCode} (hp : p s = false) (h : s.host = []) :
    runOps (require p code :: rest) s = s.raise code :=
  runOps_compute_error (by simp [hp]) h

theorem runOps_busW {reg : Byte} {v : State → Byte} (h : s.host = []) :
    runOps (.busW reg v :: rest) s = runOps rest (s.busWrite reg (v s)).bump :=
  runOps_advance rfl (by simp [State.busWrite, State.request, h])

theorem runOps_finish (h : s.host = []) : runOps (.finish :: rest) s = s.finish := by
  rw [runOps_ended (t := s.finish) rfl, endTurn_of_host_nil]
  simp [State.finish, h]

/-- The state after the framing of one register read whose answer the list gives. -/
theorem busRead_of_cons {a : BusAnswer} {r : List BusAnswer} (hc : s.chipIn = a :: r) (reg : Byte) :
    s.busRead reg =
      { s with chipIn := r, trace := s.trace ++ [.busR s.hcfg.devaddr reg], hstat := s.hstat.afterRead reg } := by
  simp [State.busRead, dropBus_of_cons hc, State.request, State.setHstat, State.setTrace, State.setChipIn]

theorem runOps_busR {reg : Byte} {store : Byte → State → State} {a : BusAnswer} {r : List BusAnswer}
    (h : (store a.data (s.busRead reg)).host = []) (hc : s.chipIn = a :: r) (ha : answered a = true) :
    runOps (.busR reg store :: rest) s = runOps rest (store a.data (s.busRead reg)).bump :=
  runOps_advance (by simp [MicroOp.perform, performRead, nextBus_of_cons hc, ha]) h

theorem runOps_busR_nack {reg : Byte} {store : Byte → State → State} {a : BusAnswer} {r : List BusAnswer}
    (h : s.host = []) (hc : s.chipIn = a :: r) (ha : answered a = false) :
    runOps (.busR reg store :: rest) s = (s.busRead reg).raise .transportNack := by
  rw [runOps_ended (t := (s.busRead reg).raise .transportNack)
    (by simp [MicroOp.perform, performRead, nextBus_of_cons hc, ha]), endTurn_of_host_nil]
  simp [State.raise, busRead_of_cons hc, h]

/-- The state once a poll has read a byte. -/
def State.polled (s : State) (a : BusAnswer) (r : List BusAnswer) : State :=
  { s with
    chipIn := r, trace := s.trace ++ [pollReq s.hcfg.devaddr], tmp := { s.tmp with s := a.data }
    pollcnt := s.pollcnt + 1 }

theorem afterRead_control (h : Hstat) : h.afterRead regEeControl = h := rfl

theorem performPoll_quiet {a : BusAnswer} {r : List BusAnswer} (hc : s.chipIn = a :: r) (ha : quiet a) :
    performPoll s = .advance (s.polled a r) := by
  simp only [performPoll, nextBus_of_cons hc, ha.1, ha.2, busRead_of_cons hc, if_true, Bool.true_eq_false, if_false]
  rfl

theorem performPoll_busy {a : BusAnswer} {r : List BusAnswer} (hc : s.chipIn = a :: r) (ha : busyPoll a) :
    performPoll s = if s.hpoll ≠ 0 ∧ s.pollcnt + 1 = s.hpoll then .ended ((s.polled a r).raise .eepromTimeout)
      else .again (s.polled a r) := by
  simp only [performPoll, nextBus_of_cons hc, ha.1, ha.2, busRead_of_cons hc, Bool.true_eq_false, if_false]
  rfl

theorem runOps_poll {a : BusAnswer} {r : List BusAnswer} (h : s.host = []) (hc : s.chipIn = a :: r)
    (ha : quiet a) : runOps (.poll :: rest) s = runOps rest (s.polled a r).bump :=
  runOps_advance (op := .poll) (performPoll_quiet hc ha) h

/-- The state after a good answer of the file port to a request. -/
def State.fileAnswered (s : State) (q : Request) (r : List FileAnswer) (g : Temps → Temps) : State :=
  { s with fileIn := r, trace := s.trace ++ [q], tmp := g s.tmp, pos := s.pos + 1 }

theorem runOps_fileSize {a : FileAnswer} {r : List FileAnswer} (h : s.host = []) (hc : s.fileIn = a :: r)
    (ha : a.ioerr = false) :
    runOps (.fileSize :: rest) s =
      runOps rest (s.fileAnswered .fileSize r fun tmp => { tmp with n := a.size }) := by
  have hp : MicroOp.fileSize.perform s = .advance
      ({ s with fileIn := r, trace := s.trace ++ [.fileSize], tmp := { s.tmp with n := a.size } }) := by
    simp only [MicroOp.perform, performFile, nextFile_of_cons hc, ha, dropFile_of_cons hc]
    rfl
  exact runOps_advance hp h

theorem runOps_fileRead {off n : Nat} {a : FileAnswer} {r : List FileAnswer} (h : s.host = [])
    (hc : s.fileIn = a :: r) (ha : a.ioerr = false) :
    runOps (.fileRead off n :: rest) s =
      runOps rest (s.fileAnswered (.fileRead off n) r fun tmp => { tmp with r := fileBytes a n }) := by
  have hp : (MicroOp.fileRead off n).perform s = .advance
      ({ s with fileIn := r, trace := s.trace ++ [.fileRead off n], tmp := { s.tmp with r := fileBytes a n } }) := by
    simp only [MicroOp.perform, performFile, nextFile_of_cons hc, ha, dropFile_of_cons hc]
    rfl
  exact runOps_advance hp h

theorem runOps_fileWriteAll {bytes : State → List Byte} {a : FileAnswer} {r : List FileAnswer} (h : s.host = [])
    (hc : s.fileIn = a :: r) (ha : a.ioerr = false) :
    runOps (.fileWriteAll bytes :: rest) s =
      runOps rest (s.fileAnswered (.fileWriteAll (bytes s)) r id) := by
  have hp : (MicroOp.fileWriteAll bytes).perform s = .advance
      ({ s with fileIn := r, trace := s.trace ++ [.fileWriteAll (bytes s)] }) := by
    simp only [MicroOp.perform, performFile, nextFile_of_cons hc, ha, dropFile_of_cons hc]
    rfl
  exact runOps_advance hp h

/-- A file request answered by IOERR ends the command with IO_FAILURE. -/
theorem performFile_ioerr {r : Request} {use : FileAnswer → State → State} {a : FileAnswer} {l : List FileAnswer}
    (hc : s.fileIn = a :: l) (ha : a.ioerr = true) :
    performFile r use s = .ended ({ s with fileIn := l, trace := s.trace ++ [r] }.raise .ioFailure) := by
  simp [performFile, nextFile_of_cons hc, ha, dropFile_of_cons hc, State.request, State.setTrace, State.setFileIn]

/-! ### The sub-procedures (41_eeprom R112-R115) -/

/-- The state after a `Wait()` whose first poll reads not-busy. -/
def State.waited (s : State) (a : BusAnswer) (r : List BusAnswer) : State :=
  { s with
    chipIn := r, trace := s.trace ++ [pollReq s.hcfg.devaddr], tmp := { s.tmp with s := a.data }, pollcnt := 1
    pos := s.pos + 2 }

/-- `Wait()` whose first poll reads not-busy. -/
theorem runOps_wait {a : BusAnswer} {r : List BusAnswer} (h : s.host = []) (hc : s.chipIn = a :: r)
    (ha : quiet a) : runOps (waitOps ++ rest) s = runOps rest (s.waited a r) := by
  rw [waitOps, List.cons_append, List.cons_append, List.nil_append, runOps_act (by simpa using h),
    runOps_poll (by simpa [State.bump] using h) (by simpa [State.bump] using hc) ha]
  rfl

/-- The state after `Wait(); BusW(reg, x)`. -/
def State.waitWritten (s : State) (reg x : Byte) (a : BusAnswer) (r : List BusAnswer) : State :=
  { s with
    chipIn := r, trace := s.trace ++ [pollReq s.hcfg.devaddr, .busW s.hcfg.devaddr reg x]
    tmp := { s.tmp with s := a.data }, pollcnt := 1, pos := s.pos + 3, hstat := s.hstat.afterWrite reg x }

/-- `Wait(); BusW(reg, v)`. -/
theorem runOps_waitWrite {reg : Byte} {v : State → Byte} {a : BusAnswer} {r : List BusAnswer} {x : Byte}
    (h : s.host = []) (hc : s.chipIn = a :: r) (ha : quiet a) (hx : v (s.waited a r) = x) :
    runOps (waitWrite reg v ++ rest) s = runOps rest (s.waitWritten reg x a r) := by
  rw [waitWrite, List.append_assoc, runOps_wait h hc ha, List.singleton_append,
    runOps_busW (s := s.waited a r) h, hx]
  simp only [State.waitWritten, State.waited, State.busWrite, State.request, State.bump, State.setPos,
    State.setHstat, State.setTrace, List.append_assoc]
  rfl

/-- The state after `Wait(); x <- BusR(reg)`. -/
def State.waitGot (s : State) (reg : Byte) (g : Byte → Temps → Temps) (a b : BusAnswer) (r : List BusAnswer) :
    State :=
  { s with
    chipIn := r, trace := s.trace ++ [pollReq s.hcfg.devaddr, .busR s.hcfg.devaddr reg]
    tmp := g b.data { s.tmp with s := a.data }, pollcnt := 1, pos := s.pos + 3
    hstat := s.hstat.afterRead reg }

/-- `Wait(); x <- BusR(reg)` into a temporary. -/
theorem runOps_waitRead {reg : Byte} {g : Byte → Temps → Temps} {a b : BusAnswer} {r : List BusAnswer}
    (h : s.host = []) (hc : s.chipIn = a :: b :: r) (ha : quiet a) (hb : answered b = true) :
    runOps (waitRead reg (fun x s => s.setTmp (g x s.tmp)) ++ rest) s =
      runOps rest (s.waitGot reg g a b r) := by
  rw [waitRead, List.append_assoc, runOps_wait h hc ha, List.singleton_append,
    runOps_busR (s := s.waited a (b :: r)) (r := r) (by rw [busRead_of_cons rfl]; exact h) rfl hb,
    busRead_of_cons (s := s.waited a (b :: r)) rfl]
  simp only [State.waitGot, State.waited, State.bump, State.setPos, State.setTmp, List.append_assoc]
  rfl

/-- The state after an EeRead on the live device with immediate polls: one word into two temporaries. -/
def State.afterLive (s : State) (a : Byte) (w : WordAnswers) (r : List BusAnswer) (g0 g1 : Byte → Temps → Temps) :
    State :=
  { s with
    pos := s.pos + 15, pollcnt := 1, chipIn := r, trace := s.trace ++ eeReadReqs s.hcfg.devaddr a
    tmp := { g0 w.lo.data { g1 w.hi.data { s.tmp with s := w.p3.data } with s := w.p4.data } with s := w.p5.data }
    hstat := { s.hstat with phase := .idle, lastmode := codeEeLock } }

/-- `EeRead(a)` on the live device (41_eeprom R114). -/
theorem runOps_eeReadLive {a : Byte} {w : WordAnswers} {r : List BusAnswer} {g0 g1 : Byte → Temps → Temps}
    (h : s.host = []) (hc : s.chipIn = w.list ++ r) (hw : w.good) :
    runOps (eeReadLive a (fun x s => s.setTmp (g0 x s.tmp)) (fun x s => s.setTmp (g1 x s.tmp)) ++ rest) s =
      runOps rest (s.afterLive a w r g0 g1) := by
  obtain ⟨h1, h2, h3, hh, h4, hl, h5⟩ := hw
  simp only [eeReadLive, lockOps, List.append_assoc]
  refine Eq.trans (runOps_waitWrite h hc h1 rfl) ?_
  refine Eq.trans (runOps_waitWrite h rfl h2 rfl) ?_
  refine Eq.trans (runOps_waitRead h rfl h3 hh) ?_
  refine Eq.trans (runOps_waitRead h rfl h4 hl) ?_
  refine Eq.trans (runOps_waitWrite h rfl h5 rfl) ?_
  simp only [State.afterLive, State.waitWritten, State.waitGot, eeReadReqs, List.append_assoc]
  rfl

/-- The state after an EeRead on the file substrate: one word into two temporaries. -/
def State.afterFile (s : State) (a : Byte) (f : FileWord) (r : List FileAnswer) (g0 g1 : Byte → Temps → Temps) :
    State :=
  { s with
    pos := s.pos + 4, fileIn := r, trace := s.trace ++ eeFileReqs a
    tmp := g1 f.b1 (g0 f.b0 { s.tmp with n := imageSize, r := [f.b0, f.b1] }) }

/-- `EeRead(a)` on the file substrate (41_eeprom R114). -/
theorem runOps_eeReadFile {a : Byte} {f : FileWord} {r : List FileAnswer} {g0 g1 : Byte → Temps → Temps}
    (h : s.host = []) (hc : s.fileIn = f.list ++ r) (hf : f.good) :
    runOps (eeReadFile a (fun x s => s.setTmp (g0 x s.tmp)) (fun x s => s.setTmp (g1 x s.tmp)) ++ rest) s =
      runOps rest (s.afterFile a f r g0 g1) := by
  obtain ⟨h1, h2, h3⟩ := hf
  simp only [eeReadFile, List.cons_append, List.nil_append]
  refine Eq.trans (runOps_fileSize h hc h1) ?_
  refine Eq.trans (runOps_require_ok (by simp [State.fileAnswered, h2]) h) ?_
  refine Eq.trans (runOps_fileRead (a := f.data) (r := r) h rfl h3) ?_
  refine Eq.trans (runOps_act h) ?_
  have h4 : fileBytes f.data 2 = [f.b0, f.b1] := rfl
  simp only [State.afterFile, State.fileAnswered, State.bump, State.setPos, State.setTmp, eeFileReqs, h4, h2,
    List.append_assoc]
  rfl

/-- `EeWrite(a, b0, b1)` with immediate polls (41_eeprom R115). -/
theorem runOps_eeWrite {a x0 x1 : Byte} {b0 b1 : State → Byte} {p : PollAnswers} {r : List BusAnswer}
    (h : s.host = []) (hc : s.chipIn = p.list ++ r) (hp : p.good)
    (h0 : ∀ t : State, t.img = s.img → t.tmp.a = s.tmp.a → b0 t = x0)
    (h1 : ∀ t : State, t.img = s.img → t.tmp.a = s.tmp.a → b1 t = x1) :
    runOps (eeWrite a b0 b1 ++ rest) s = runOps rest { s with
      pos := s.pos + 15, pollcnt := 1, chipIn := r, trace := s.trace ++ eeWriteReqs s.hcfg.devaddr a x0 x1
      tmp := { s.tmp with s := p.p5.data }
      hstat := { s.hstat with phase := .idle, lastmode := codeEeLock } } := by
  obtain ⟨q1, q2, q3, q4, q5⟩ := hp
  simp only [eeWrite, lockOps, List.append_assoc]
  refine Eq.trans (runOps_waitWrite h hc q1 rfl) ?_
  refine Eq.trans (runOps_waitWrite h rfl q2 rfl) ?_
  refine Eq.trans (runOps_waitWrite h rfl q3 (h1 _ rfl rfl)) ?_
  refine Eq.trans (runOps_waitWrite h rfl q4 (h0 _ rfl rfl)) ?_
  refine Eq.trans (runOps_waitWrite h rfl q5 rfl) ?_
  simp only [State.waitWritten, eeWriteReqs, List.append_assoc]
  rfl

/-! ### A whole command from its first line -/

theorem runProgram_atStart {ops : List MicroOp} {op : MicroOp} (h : s.pos = 0) :
    runProgram (op :: ops) s = .next (runOps (op :: ops) s) := by
  simp [runProgram, h]

end

end Sys2Proof.Machine
end

