-- ==== Sys2Proof/Laws/Ops.lean ====
section
/-! SUPPORT. What each shared operation can do, said once: the prologue, the requests, one line of a program, a whole
turn, and a step; and the induction over a turn that invariants are proved by. -/

namespace Sys2Proof.Machine

/-! ### The prologue (60_exceptions R171) -/

/-- Everything the prologue can answer. -/
theorem prologue_cases (d : Bool) (need : Need) (s : State) :
    (d = false ∧ prologue d need s = .error .validationError) ∨
    (d = true ∧ need = .live ∧ s.hcfg.subst = .fileImage ∧ prologue d need s = .error .configError) ∨
    (d = true ∧ need ≠ .noSubstrate ∧ s.hcfg.subst = .liveDevice ∧ s.busReady = false ∧
      prologue d need s = .error .transportUnavailable) ∨
    (d = true ∧ (need = .live → s.hcfg.subst = .liveDevice) ∧
      (need ≠ .noSubstrate → s.hcfg.subst = .liveDevice → s.busReady = true) ∧ prologue d need s = .ok s) := by
  cases d
  · exact .inl ⟨rfl, rfl⟩
  · right
    cases need <;> cases hs : s.hcfg.subst <;> cases hb : s.busReady <;> simp [prologue, Need.usesBus, hs, hb]

theorem prologue_ok_live {s : State} {need : Need} (hs : s.hcfg.subst = .liveDevice) (hb : s.busReady = true) :
    prologue true need s = .ok s := by
  cases need <;> simp [prologue, Need.usesBus, hs, hb]

theorem prologue_ok_file {s : State} {need : Need} (hn : need ≠ .live) (hs : s.hcfg.subst = .fileImage) :
    prologue true need s = .ok s := by
  cases need <;> simp_all [prologue, Need.usesBus]

theorem prologue_ok_none {s : State} : prologue true .noSubstrate s = .ok s := rfl

/-- The prologue changes nothing. -/
theorem prologue_state {d : Bool} {need : Need} {s t : State} (h : prologue d need s = .ok t) : t = s := by
  rcases prologue_cases d need s with ⟨-, h1⟩ | ⟨-, -, -, h1⟩ | ⟨-, -, -, -, h1⟩ | ⟨-, -, -, h1⟩ <;>
    rw [h1] at h <;> cases h
  rfl

/-! ### Requests -/

/-- The state once the chip's answer is taken: a listed one, or a free draw. -/
theorem dropBus_cases (s : State) :
    (∃ a r, s.chipIn = a :: r ∧ s.nextBus = a ∧ s.dropBus = s.setChipIn r) ∨
    (s.chipIn = [] ∧ s.nextBus = Config.busAnswer s.draws ∧ s.dropBus = s.setDraws (s.draws + 1)) := by
  unfold State.nextBus State.dropBus
  cases h : s.chipIn with
  | nil => exact .inr ⟨rfl, rfl, rfl⟩
  | cons a r => exact .inl ⟨a, r, rfl, rfl, rfl⟩

/-- The same of the file port's answer. -/
theorem dropFile_cases (s : State) :
    (∃ a r, s.fileIn = a :: r ∧ s.nextFile = a ∧ s.dropFile = s.setFileIn r) ∨
    (s.fileIn = [] ∧ s.nextFile = Config.fileAnswer s.draws ∧ s.dropFile = s.setDraws (s.draws + 1)) := by
  unfold State.nextFile State.dropFile
  cases h : s.fileIn with
  | nil => exact .inr ⟨rfl, rfl, rfl⟩
  | cons a r => exact .inl ⟨a, r, rfl, rfl, rfl⟩

/-- `BusW`: the log, PHASE and LASTMODE, and nothing else (40_bus R104). -/
theorem busWrite_eq (s : State) (reg v : Byte) :
    s.busWrite reg v =
      { s with trace := s.trace ++ [.busW s.hcfg.devaddr reg v], hstat := s.hstat.afterWrite reg v } := rfl

/-- `BusR`'s framing: the answer taken, the log and PHASE, and nothing else (40_bus R103). -/
theorem busRead_eq (s : State) (reg : Byte) :
    s.busRead reg =
      { s with
        chipIn := s.dropBus.chipIn, draws := s.dropBus.draws
        trace := s.trace ++ [.busR s.hcfg.devaddr reg], hstat := s.hstat.afterRead reg } := by
  rcases dropBus_cases s with ⟨a, r, -, -, h⟩ | ⟨-, -, h⟩ <;> rw [State.busRead, h] <;> rfl

/-! ### One line -/

/-- Everything a line can lead to, by its kind. -/
theorem perform_poll_cases (s : State) :
    (answered s.nextBus = false ∧ MicroOp.poll.perform s = .ended ((s.busRead regEeControl).raise .transportNack)) ∨
    (answered s.nextBus = true ∧
      ∃ t, t = ((s.busRead regEeControl).setTmp { s.tmp with s := s.nextBus.data }).setPollcnt (s.pollcnt + 1) ∧
      ((s.nextBus.data.getLsbD bitBusy = false ∧ MicroOp.poll.perform s = .advance t) ∨
        (s.nextBus.data.getLsbD bitBusy = true ∧ s.hpoll ≠ 0 ∧ s.pollcnt + 1 = s.hpoll ∧
          MicroOp.poll.perform s = .ended (t.raise .eepromTimeout)) ∨
        (s.nextBus.data.getLsbD bitBusy = true ∧ (s.hpoll = 0 ∨ s.pollcnt + 1 ≠ s.hpoll) ∧
          MicroOp.poll.perform s = .again t))) := by
  have h1 : (s.busRead regEeControl).tmp = s.tmp := by rw [busRead_eq]
  have h2 : (s.busRead regEeControl).pollcnt = s.pollcnt := by rw [busRead_eq]
  have h3 : (s.busRead regEeControl).hpoll = s.hpoll := by rw [busRead_eq]
  cases ha : answered s.nextBus
  · exact .inl ⟨rfl, by simp [MicroOp.perform, performPoll, ha]⟩
  · refine .inr ⟨rfl, _, rfl, ?_⟩
    cases hb : s.nextBus.data.getLsbD bitBusy
    · exact .inl ⟨rfl, by simp only [MicroOp.perform, performPoll, ha, hb, h1, h2]; rfl⟩
    · right
      by_cases hp : s.hpoll ≠ 0 ∧ s.pollcnt + 1 = s.hpoll
      · refine .inl ⟨rfl, hp.1, hp.2, ?_⟩
        simp only [MicroOp.perform, performPoll, ha, hb, h1, h2]
        rw [if_neg (by decide), if_neg (by decide), if_pos]
        exact ⟨by rw [← h3] at hp; exact hp.1, by rw [← h3] at hp; exact hp.2⟩
      · refine .inr ⟨rfl, by tauto, ?_⟩
        simp only [MicroOp.perform, performPoll, ha, hb, h1, h2]
        rw [if_neg (by decide), if_neg (by decide), if_neg]
        rw [← h3] at hp
        exact hp

/-- A turn's end uses up a `pass` at most. -/
theorem endTurn_cases (s : State) : s.endTurn = s ∨ ∃ rest, s.host = .pass :: rest ∧ s.endTurn = s.setHost rest := by
  unfold State.endTurn
  split
  · exact .inr ⟨_, ‹_›, rfl⟩
  · exact .inl rfl

/-! ### A turn -/

/-- Induction over a turn of the program L from its line k: P holds before line k is performed, and Q of the state the
turn leaves. -/
theorem runOps_induction {L : List MicroOp} {P : Nat → State → Prop} {Q : State → Prop}
    (advance : ∀ k op s t, L[k]? = some op → P k s → op.perform s = .advance t → P (k + 1) t.bump)
    (again : ∀ k op s t, L[k]? = some op → P k s → op.perform s = .again t → Q t.endTurn)
    (ended : ∀ k op s t, L[k]? = some op → P k s → op.perform s = .ended t → Q t.endTurn)
    (stop : ∀ k s, P k s → Q s.endTurn) (k : Nat) (s : State) (h : P k s) : Q (runOps (L.drop k) s) := by
  generalize hn : L.length - k = n
  induction n generalizing k s with
  | zero =>
    rw [List.drop_eq_nil_of_le (by omega)]
    exact stop k s h
  | succ n ih =>
    have hk : k < L.length := by omega
    rw [List.drop_eq_getElem_cons hk]
    have hop : L[k]? = some L[k] := List.getElem?_eq_getElem hk
    unfold runOps
    split
    · rename_i t ht
      have hP := advance k _ s t hop h ht
      split
      · exact ih (k + 1) t.bump hP (by omega)
      · exact stop (k + 1) t.bump hP
    · exact again k _ s _ hop h ‹_›
    · exact ended k _ s _ hop h ‹_›

/-- A turn of a program answers a next state exactly when the position lies in it. -/
theorem runProgram_cases (L : List MicroOp) (s : State) :
    (s.pos < L.length ∧ runProgram L s = .next (runOps (L.drop s.pos) s)) ∨
    (L.length ≤ s.pos ∧ runProgram L s = .fault .lostPosition) := by
  unfold runProgram
  by_cases h : s.pos < L.length
  · left
    refine ⟨h, ?_⟩
    rw [List.drop_eq_getElem_cons h]
  · right
    refine ⟨by omega, ?_⟩
    rw [List.drop_eq_nil_of_le (by omega)]

/-! ### Which instruction runs -/

/-- A command's exec is one turn of its lines. -/
theorem exec_eq_runProgram {i : Instr} (h : isControl i = false) (s : State) :
    exec i s = runProgram (linesOf i s.hcfg.subst) s := by
  cases i <;> first | rfl | cases h

/-- A branching decoder's answer is the answer of one of its branches. -/
theorem decoded_of_ite {c : Prop} [Decidable c] {a b : Except DecodeError Instr} {i : Instr} {P : Prop}
    (ha : a = .ok i → P) (hb : b = .ok i → P) : (if c then a else b) = .ok i → P := by
  split
  · exact ha
  · exact hb

theorem reserved_ok {z : Bool} {i j : Instr} (h : reserved z i = .ok j) : z = true ∧ j = i := by
  cases z <;> cases h
  exact ⟨rfl, rfl⟩

/-- A control code is no command word's meaning. -/
theorem fetch_not_control {s : State} {i : Instr} : s.fetch = .ok i → isControl i = false := by
  unfold State.fetch decodeCommand
  repeat' refine decoded_of_ite ?_ ?_
  all_goals
    intro h
    cases h
  all_goals rfl

/-- The sequencer's turn, whatever CUR holds: one turn of the current lines while BUSY, nothing while idle. -/
theorem sequencerTurn_eq (s : State) :
    sequencerTurn s = if s.hstat.busy then runProgram s.lines s else .next s.endTurn := by
  unfold sequencerTurn State.lines
  split
  · cases h : s.fetch with
    | error e => rfl
    | ok i => exact exec_eq_runProgram (fetch_not_control h) s
  · rfl

/-- Everything a step can be. -/
theorem step_cases (s : State) :
    ((s.host = [] ∨ ∃ rest, s.host = .pass :: rest) ∧ step s = sequencerTurn s) ∨
    (∃ off rest, s.host = .read off :: rest ∧ step s = .next ((s.setHost rest).hostRead off)) ∨
    (∃ off w rest, s.host = .write off w :: rest ∧ step s = .next ((s.setHost rest).hostWrite off w)) ∨
    (∃ addr rest, s.host = .readAt addr :: rest ∧ Config.ozecBase ≤ addr ∧
      step s = .next ((s.setHost rest).hostRead (addr - Config.ozecBase))) ∨
    (∃ addr w rest, s.host = .writeAt addr w :: rest ∧ Config.ozecBase ≤ addr ∧
      step s = .next ((s.setHost rest).hostWrite (addr - Config.ozecBase) w)) ∨
    (∃ act rest, s.host = act :: rest ∧ step s = .next (s.setHost rest)) ∨
    (∃ w rest, s.host = .statWith w :: rest ∧
      step s = sequencerTurn ((s.setHost (.pass :: rest)).setHstat (s.hstat.cleared w))) ∨
    (∃ b rest, s.host = .busReady b :: rest ∧ step s = .next ((s.setHost rest).setBusReady b)) ∨
    (∃ rest, s.host = .reset :: rest ∧ step s = .next (s.setHost rest).hwReset) := by
  unfold step
  cases h : s.host with
  | nil => exact .inl ⟨.inl rfl, rfl⟩
  | cons act rest =>
    cases act with
    | pass => exact .inl ⟨.inr ⟨rest, rfl⟩, rfl⟩
    | read off => exact .inr (.inl ⟨off, rest, rfl, rfl⟩)
    | write off w => exact .inr (.inr (.inl ⟨off, w, rest, rfl, rfl⟩))
    | readAt addr =>
      by_cases hb : Config.ozecBase ≤ addr
      · exact .inr (.inr (.inr (.inl ⟨addr, rest, rfl, hb, by simp [hostTurn, offsetOf, hb]⟩)))
      · exact .inr (.inr (.inr (.inr (.inr (.inl ⟨_, rest, rfl, by simp [hostTurn, offsetOf, hb]⟩)))))
    | writeAt addr w =>
      by_cases hb : Config.ozecBase ≤ addr
      · exact .inr (.inr (.inr (.inr (.inl ⟨addr, w, rest, rfl, hb, by simp [hostTurn, offsetOf, hb]⟩))))
      · exact .inr (.inr (.inr (.inr (.inr (.inl ⟨_, rest, rfl, by simp [hostTurn, offsetOf, hb]⟩)))))
    | statWith w =>
      exact .inr (.inr (.inr (.inr (.inr (.inr (.inl ⟨w, rest, rfl, by
        simp [hostTurn, State.hostWrite, guardedOffset, offHstat, offHcmd, offHcfg, offHpoll, offHimga, offHimgd]⟩))))))
    | busReady b => exact .inr (.inr (.inr (.inr (.inr (.inr (.inr (.inl ⟨b, rest, rfl, rfl⟩)))))))
    | reset => exact .inr (.inr (.inr (.inr (.inr (.inr (.inr (.inr ⟨rest, rfl, rfl⟩)))))))

/-! ### The host registers (10_state R19-R37) -/

/-- Everything a host write can do. -/
theorem hostWrite_cases (s : State) (off : Nat) (w : Word32) :
    (s.hstat.busy = true ∧ guardedOffset off = true ∧ s.hostWrite off w = s.setHstat s.hstat.overrun) ∨
    (s.hstat.busy = false ∧ off = offHcmd ∧ s.hostWrite off w = s.accept w) ∨
    (off = offHstat ∧ s.hostWrite off w = s.setHstat (s.hstat.cleared w)) ∨
    (s.hstat.busy = false ∧ off = offHcfg ∧ s.hostWrite off w = s.setHcfg (Hcfg.ofWord w)) ∨
    (s.hstat.busy = false ∧ off = offHpoll ∧ s.hostWrite off w = s.setHpoll w) ∨
    (s.hstat.busy = false ∧ off = offHimga ∧ s.hostWrite off w = s.setHimga (w.extractLsb' 0 7)) ∨
    (s.hstat.busy = false ∧ off = offHimgd ∧
      s.hostWrite off w = (s.memWrite s.himga.toNat [w.extractLsb' 0 8]).setHimga (s.himga + 1)) ∨
    (guardedOffset off = false ∧ off ≠ offHstat ∧ s.hostWrite off w = s) := by
  unfold State.hostWrite
  by_cases hg : guardedOffset off = true
  · cases hb : s.hstat.busy
    · have h5 : off = offHcmd ∨ off = offHcfg ∨ off = offHpoll ∨ off = offHimga ∨ off = offHimgd := by
        simpa [guardedOffset, or_assoc] using hg
      rcases h5 with rfl | rfl | rfl | rfl | rfl <;> simp [guardedOffset]
    · simp [hg]
  · have hg' : guardedOffset off = false := by simpa using hg
    have h5 : ¬ (off = offHcmd ∨ off = offHcfg ∨ off = offHpoll ∨ off = offHimga ∨ off = offHimgd) := by
      simpa [guardedOffset, or_assoc] using hg
    by_cases hs : off = offHstat
    · subst hs
      simp [guardedOffset]
    · simp only [not_or] at h5
      simp [hg', hs, h5.1, h5.2.1, h5.2.2.1, h5.2.2.2.1, h5.2.2.2.2]

/-- A host read changes HIMGA, the count of draws and the list of reads at most. -/
theorem hostRead_eq (s : State) (off : Nat) :
    s.hostRead off =
      { s with
        himga := (s.afterHostRead off).himga, draws := (s.afterHostRead off).draws
        reads := s.reads ++ [s.hostValue off] } := by
  unfold State.hostRead State.afterHostRead
  dsimp only
  split
  · split <;> split <;> rfl
  · rfl

end Sys2Proof.Machine
end

