-- ==== Sys2Proof/Tests/Slice0.lean ====
section
/-! SUPPORT. Tests with expected values from the spec's own vectors (95_test_vectors, the rules' examples), and one
witness per statement that has hypotheses: a concrete state and operands that meet them all. -/

namespace Sys2Proof.Tests

set_option Elab.async false

open Sys2Proof Sys2Proof.Machine

/-! ### Small states -/

/-- Reset, then HCFG ← A with A = 0x2A (95 Part 3). -/
def live : State :=
  { State.reset with hcfg := { devaddr := 0x2A, subst := .liveDevice, force := false, nibmode := .sext } }

/-- The same with SUBST = 1. -/
def onFile : State :=
  { State.reset with hcfg := { devaddr := 0x2A, subst := .fileImage, force := false, nibmode := .sext } }

/-- An acknowledged answer with a data byte. -/
def dat (b : Byte) : BusAnswer := ⟨true, true, b, 0xEE⟩

/-- A missing acknowledge, in the first address phase. -/
def silent : BusAnswer := ⟨false, true, 0x5A, 0xEE⟩

/-- A word's answers with immediate polls. -/
def word (lo hi : Byte) : WordAnswers := ⟨dat 0, dat 0, dat 0, dat hi, dat 0, dat lo, dat 0⟩

/-- Five immediate polls. -/
def polls : PollAnswers := ⟨dat 0, dat 0, dat 0, dat 0, dat 0⟩

/-- A file word's answers on a 128-byte file. -/
def fileWord (lo hi : Byte) : FileWord := ⟨⟨false, 128, []⟩, ⟨false, 0, [lo, hi]⟩⟩

/-- The state an outcome leads to. -/
def goes : Host.Outcome State Fault Refusal → State
  | .next s => s
  | .fault _ => State.reset
  | .refused _ => State.reset

/-- The host writes HCMD, and one turn of the sequencer follows. -/
def cmd (w : Word32) (s : State) : State := goes (step (s.accept w))

/-- A state with the chip's answers listed. -/
def chip (l : List BusAnswer) (s : State) : State := { s with chipIn := l }

/-- A state with the file port's answers listed. -/
def port (l : List FileAnswer) (s : State) : State := { s with fileIn := l }

/-- A state whose IMG is complete: byte j is j. -/
def filled (s : State) : State := s.memWrite 0 ((List.range 128).map (BitVec.ofNat 8))

/-! ### WellFormed: each check refuses an ill-formed term (30_encoding R90, 95 V1) -/

theorem test_wellFormed_eaddr :
    (Instr.rdword 0x35).wellFormed = false ∧ (Instr.rdword 0x80).wellFormed = false ∧
    (Instr.wrword 0x01 0 0).wellFormed = false ∧ (Instr.wrword 0xFE 0 0).wellFormed = false ∧
    (Instr.unpack 0x7F 0 0 false).wellFormed = false ∧ (Instr.rdword 0x7E).wellFormed = true := by decide

theorem test_wellFormed_field :
    (Instr.unpack 0x02 12 4 true).wellFormed = false ∧ (Instr.limit 0 12 7).wellFormed = false ∧
    (Instr.unpack 0x02 12 3 true).wellFormed = true := by decide

theorem test_wellFormed_selectors :
    (Instr.cellv 13).wellFormed = false ∧ (Instr.cellv 12).wellFormed = true ∧
    (Instr.limit 2 0 7).wellFormed = false ∧ (Instr.limit 1 0 8).wellFormed = false ∧
    (Instr.limit 1 8 7).wellFormed = true ∧
    (Instr.thresh 4).wellFormed = false ∧ (Instr.thresh 3).wellFormed = true := by decide

theorem test_wellFormed_values :
    (Instr.v2adc 999424).wellFormed = false ∧ (Instr.v2adc 999423).wellFormed = true ∧
    (Instr.setvl 2 999424).wellFormed = false ∧ (Instr.setvl 2 999423).wellFormed = true ∧
    (Instr.setrs 0).wellFormed = false ∧ (Instr.setrs 256).wellFormed = false ∧
    (Instr.setrs 255).wellFormed = true := by decide

/-! ### Decode: a word written out from R86 and R87 for every constructor -/

theorem test_decode_bus :
    decodeTableWord 32 0b00000001_01011111_00000000_00000000 = some (.rdreg 0x5F) ∧
    decodeTableWord 32 0b00000010_00011110_00000011_00000000 = some (.wrreg 0x1E 0x03) ∧
    decodeTableWord 32 0b00000011_00000000_00000000_00000000 = some .chipid ∧
    decodeTableWord 32 0b00000100_00000000_00000000_00000000 = some .reboot := by decide

theorem test_decode_eeprom :
    decodeTableWord 32 0b00010000_00110100_00000000_00000000 = some (.rdword 0x34) ∧
    decodeTableWord 32 0b00010001_00010000_10101010_01010101 = some (.wrword 0x10 0xAA 0x55) ∧
    decodeTableWord 32 0b00010010_00000000_00000000_00000000 = some .lock ∧
    decodeTableWord 32 0b00010011_00000000_00000000_00000000 = some .rdimg ∧
    decodeTableWord 32 0b00010100_00000000_00000000_00000000 = some .rewrite ∧
    decodeTableWord 32 0b00011000_00000000_00000000_00000000 = some .loadimg ∧
    decodeTableWord 32 0b00011001_00000000_00000000_00000000 = some .saveimg := by decide

theorem test_decode_measure :
    decodeTableWord 32 0b00100000_00001100_00000000_00000000 = some (.cellv 12) ∧
    decodeTableWord 32 0b00100001_00000000_00000000_00000000 = some .curr ∧
    decodeTableWord 32 0b00100010_00000000_00000000_00000000 = some .rsense ∧
    decodeTableWord 32 0b00100011_00000001_10000111_00000000 = some (.limit 1 8 7) ∧
    decodeTableWord 32 0b00100100_00000010_00000000_00000000 = some (.thresh 2) ∧
    decodeTableWord 32 0b00100101_00000000_00000010_00000001 = some (.adc2mv 513) ∧
    decodeTableWord 32 0b00100110_00000000_11110100_01111010 = some (.v2adc 62586) ∧
    decodeTableWord 32 0b00100111_00000000_00000000_00011001 = some (.setrs 25) ∧
    decodeTableWord 32 0b00101000_10000011_11010000_10010000 = some (.setvl 2 250000) := by decide

theorem test_decode_unpack_status :
    decodeTableWord 32 0b00110000_00000010_01000011_10000000 = some (.unpack 0x02 4 3 true) ∧
    decodeTableWord 32 0b00110000_00100110_00000011_00000000 = some (.unpack 0x26 0 3 false) ∧
    decodeTableWord 32 0b00110001_00000000_00000000_11111000 = some (.sext4 0xF8) ∧
    decodeTableWord 32 0b00111000_00000000_00000000_01000101 = some (.decauth 0x45) := by decide

theorem test_decode_control :
    decodeTableWord 8 0b00000000 = some .eeLock ∧ decodeTableWord 8 0b01010000 = some .eeAuth ∧
    decodeTableWord 8 0b01010010 = some .eeWrite ∧ decodeTableWord 8 0b01010011 = some .eeErase ∧
    decodeTableWord 8 0b01010101 = some .eeRead ∧ decodeTableWord 8 0b01010001 = none := by decide

/-- 95 V1: the illegal rows. -/
theorem test_illegal_words :
    [0x00000000, 0x05000000, 0x015F0100, 0x03000001, 0x28100000, 0x27010019, 0x25002000].all
      (fun w => (decodeTableWord 32 w).isNone) = true := by decide

/-- 30_encoding R92 and R93 on lines whose words R94 gives. -/
theorem test_assembler :
    (assemble "LIMIT chg, 0, 8".toList).toOption = some [.command 0x23000700] ∧
    (assemble "UNPACK 0x02, 4, 4, s".toList).toOption = some [.command 0x30024380] ∧
    (assemble "THRESH ovtrip".toList).toOption = some [.command 0x24000000] ∧
    (assemble "WRREG 0x15, 1".toList).toOption = some [.command 0x02150100] ∧
    (assemble "CELLCOUNT".toList).toOption = some [.command 0x30260300] ∧
    (assemble "DUMP".toList).toOption = some [.command 0x13000000, .command 0x19000000] ∧
    (assemble "UNPACK 0x02, 4, 17, s".toList).toOption = none ∧
    (assemble "RDWORD 0x35".toList).toOption = some [.command 0x10350000] := by decide +kernel

/-! ### The prologue (95 V1) -/

/-- Order of the checks: domain, then substrate, then transport. -/
theorem test_prologue_order :
    (cmd 0x200D0000 { onFile with busReady := false }).hstat.errcode = .validationError ∧
    (cmd 0x200C0000 onFile).hstat.errcode = .configError ∧
    (cmd 0x200C0000 { live with busReady := false }).hstat.errcode = .transportUnavailable ∧
    (cmd 0x00000000 { live with busReady := false }).hstat.word = 0x00000A26 ∧
    (cmd 0x10340000 (port (fileWord 0x19 0).list { onFile with busReady := false })).hres0 = 0x19 := by
  decide +kernel

/-! ### Register commands (95 V2) -/

theorem test_rdreg :
    (cmd 0x011C0000 (chip [dat 0x5A] live)).hres0 = 0x5A ∧
    (cmd 0x015D0000 (chip [dat 0x12] live)).hstat.phase = .wordRead ∧
    (cmd 0x01000000 (chip [silent] live)).hres0 = 0 ∧
    (cmd 0x01000000 (chip [silent] live)).hstat.errcode = .transportNack := by decide +kernel

/-- The framing of one read, complete even after a NACK (40_bus R102, R103). -/
theorem test_rdreg_framing :
    (cmd 0x01000000 (chip [silent] live)).busPort =
      [.start, .write [0x54, 0x00], .getAck, .start, .write [0x55], .getAck, .read 1, .sendNack, .read 1, .sendNack,
       .stop] := by decide +kernel

theorem test_wrreg :
    (cmd 0x021E0300 live).busPort = [.start, .write [0x54, 0x1E, 0x03], .stop] ∧
    (cmd 0x021E0300 live).hstat.word = 0x00000002 ∧
    (cmd 0x025F5500 live).hstat.word = 0x00552002 := by decide +kernel

theorem test_chipid :
    (cmd 0x03000000 (chip [dat 2] live)).hstat.word = 0x00000002 ∧
    (cmd 0x03000000 (chip [dat 3] live)).hstat.word = 0x00000226 ∧
    (cmd 0x03000000 (chip [dat 3] { live with hcfg := { live.hcfg with force := true } })).hstat.word = 0x0000000A ∧
    (cmd 0x03000000 (chip [dat 3] live)).hres0 = 3 := by decide +kernel

theorem test_reboot :
    (cmd 0x04000000 live).trace = [.busW 0x2A 0x15 0x01, .busW 0x2A 0x15 0x00] ∧
    (cmd 0x04000000 live).hstat.word = 0x00000002 := by decide +kernel

/-! ### EEPROM (95 V3) -/

theorem test_rdword :
    (cmd 0x107A0000 (chip (word 0x34 0x12).list live)).hres0 = 0x1234 ∧
    (cmd 0x10340000 (port [⟨false, 127, []⟩] onFile)).hstat.errcode = .imageSizeMismatch ∧
    (cmd 0x10340000 (port [⟨true, 0, []⟩] onFile)).hstat.errcode = .ioFailure ∧
    (cmd 0x10340000 (port [⟨false, 128, []⟩, ⟨true, 0, []⟩] onFile)).hstat.errcode = .ioFailure := by decide +kernel

/-- R117's example, transaction by transaction. -/
theorem test_wrword :
    (cmd 0x11341900 (chip polls.list live)).trace =
      [.busR 0x2A 0x5F, .busW 0x2A 0x5F 0x52, .busR 0x2A 0x5F, .busW 0x2A 0x5E 0x34, .busR 0x2A 0x5F,
       .busW 0x2A 0x5D 0x00, .busR 0x2A 0x5F, .busW 0x2A 0x5C 0x19, .busR 0x2A 0x5F, .busW 0x2A 0x5F 0x00] := by
  decide +kernel

/-- 95 Q5, step 4: the time-out leaves write mode. -/
theorem test_wrword_timeout :
    let s := { cmd 0x1110AA55 (chip [dat 0, dat 0x80, dat 0x80] { live with hpoll := 2 }) with host := [] }
    (goes (step s)).hstat.word = 0x00522626 := by decide +kernel

/-- A busy poll ends the turn; the next one completes. -/
theorem test_lock :
    let s := cmd 0x12000000 (chip [dat 0x80, dat 0] live)
    s.hstat.busy = true ∧ (goes (step s)).hstat.word = 0x00000002 ∧
    (goes (step s)).trace = [.busR 0x2A 0x5F, .busR 0x2A 0x5F, .busW 0x2A 0x5F 0x00] := by decide +kernel

/-- 95 V3: one poll allowed, busy; and a NACK. -/
theorem test_lock_errors :
    (cmd 0x12000000 (chip [dat 0x80] { live with hpoll := 1 })).hstat.errcode = .eepromTimeout ∧
    (cmd 0x12000000 (chip [silent] { live with hpoll := 1 })).hstat.errcode = .transportNack := by decide +kernel

/-- RDIMG with a NACK at the first poll of word 3: 31 transactions, six bytes. -/
theorem test_rdimg_nack :
    let t := cmd 0x13000000 (chip ((word 1 2).list ++ (word 3 4).list ++ (word 5 6).list ++ [silent]) live)
    t.trace.length = 31 ∧ t.hres0 = 6 ∧ t.img = [(0, 1), (1, 2), (2, 3), (3, 4), (4, 5), (5, 6)] ∧
      t.hstat.errcode = .transportNack := by decide +kernel

theorem test_loadimg :
    (cmd 0x18000000 (port [⟨false, 127, []⟩] live)).hstat.errcode = .imageSizeMismatch ∧
    (cmd 0x18000000 (port [⟨false, 128, []⟩, ⟨false, 0, List.replicate 128 7⟩] live)).img =
      (List.range 128).map (fun k => (k, 7)) := by decide +kernel

theorem test_saveimg :
    (cmd 0x19000000 live).hstat.errcode = .imageSizeMismatch ∧
    (cmd 0x19000000 (port [⟨false, 0, []⟩] (filled live))).hres0 = 128 ∧
    (cmd 0x19000000 (port [⟨true, 0, []⟩] (filled live))).hstat.errcode = .ioFailure := by decide +kernel

/-! ### REWRITE (95 V4, Q3, Q4) -/

/-- The answers of REWRITE up to step 5 with a status byte: password bytes 0x34, 0x12. -/
def authAnswers (status : Byte) : List BusAnswer := (word 0x34 0x12).list ++ [dat 0, dat status, dat 0]

/-- HPOLL 1 and a busy poll at word 1: the erase and word 0 done, then EEPROM_TIMEOUT (95 V4, with word 1 for 10). -/
theorem test_rewrite_granted :
    let t := cmd 0x14000000 (chip (authAnswers 0x45 ++ [dat 0] ++ polls.list ++ [dat 0x80])
      (filled { live with hpoll := 1 }))
    t.trace.length = 30 ∧ t.hstat.word = 0x01000626 ∧ t.hres0 = 0x45 ∧ t.hres1 = 0x1234 ∧
      (t.trace.drop 17).take 4 = [.busR 0x2A 0x5F, .busW 0x2A 0x5F 0x53, .busR 0x2A 0x5F, .busW 0x2A 0x5F 0x52] := by
  decide +kernel

theorem test_rewrite_rejected :
    let t := cmd 0x14000000 (chip (authAnswers 0x80) (filled live))
    t.trace.length = 17 ∧ t.hstat.word = 0x02000326 ∧ t.hres0 = 0x80 ∧
      (cmd 0x14000000 (chip (authAnswers 0x20) (filled live))).hstat.authst = .busy := by decide +kernel

/-! ### Measurement (95 V5) -/

theorem test_cellv :
    (cmd 0x20000000 (chip [dat 0x08, dat 0x10] live)).hres1 = 513 ∧
    (cmd 0x20000000 (chip [dat 0x08, dat 0x10] live)).hres0 = 62586 ∧
    (cmd 0x200C0000 (chip [dat 0xFF, dat 0xFF] live)).hres0 = 999302 ∧
    (cmd 0x200C0000 (chip [dat 0x07, dat 0x00] live)).trace = [.busR 0x2A 0x4A, .busR 0x2A 0x4B] := by decide +kernel

theorem test_curr :
    (cmd 0x21000000 (chip ([dat 0xE8, dat 0x03] ++ (word 0 0).list) live)).hres0 = 305200 ∧
    (cmd 0x21000000 (chip ([dat 0xFF, dat 0xFF] ++ (word 0xFF 0).list) live)).hres0 = 0xFFFFFFE3 ∧
    (cmd 0x21000000 (chip ([dat 0x00, dat 0x80] ++ (word 0x01 0).list) live)).hres0 = 0xF1190000 ∧
    (cmd 0x21000000 (chip ([dat 0x00, dat 0x80] ++ (word 0x00 0).list) live)).hres0 = 0xFF676667 := by decide +kernel

theorem test_rsense :
    (cmd 0x22000000 (chip (word 0x00 0).list live)).hres0 = 25 ∧
    (cmd 0x22000000 (chip (word 0x19 0).list live)).hres1 = 25 ∧
    (cmd 0x22000000 (chip (word 0xFF 0).list live)).hres0 = 255 := by decide +kernel

theorem test_limit_charge :
    let t := cmd 0x23000700 (port ((fileWord 0x64 0).list ++ (fileWord 0x20 0).list ++ (fileWord 0 0).list) onFile)
    t.hres0 = 204000 ∧ t.hres1 = 514000 ∧
      t.trace = [.fileSize, .fileRead 0x28 2, .fileSize, .fileRead 0x02 2, .fileSize, .fileRead 0x34 2] := by
  decide +kernel

/-- 0xA5C3, field 15:8, offset byte 0xF8: NIBMODE matters. -/
theorem test_limit_discharge :
    let c := (word 0xC3 0xA5).list ++ (word 0xF8 0).list ++ (word 0x32 0).list
    (cmd 0x23018700 (chip c live)).hres0 = 164000 ∧ (cmd 0x23018700 (chip c live)).trace.length = 30 ∧
    (cmd 0x23018700 (chip c { live with hcfg := { live.hcfg with nibmode := .cdiv } })).hres1 = 255000 := by
  decide +kernel

theorem test_thresh :
    (cmd 0x24020000 (port (fileWord 0x0D 0x40).list onFile)).hres1 = 2049 ∧
    (cmd 0x24020000 (port (fileWord 0x0D 0x40).list onFile)).hres0 = 249978 ∧
    (cmd 0x24020000 (port (fileWord 0x0D 0x40).list onFile)).trace = [.fileSize, .fileRead 0x4E 2] ∧
    (cmd 0x24000000 (chip (word 0xF8 0x00).list live)).hres1 = 31 := by decide +kernel

theorem test_adc2mv :
    (cmd 0x25000201 live).hres0 = 62586 ∧ (cmd 0x25001FFF live).hres0 = 999302 := by decide +kernel

theorem test_v2adc :
    (cmd 0x26000079 live).hres0 = 0 ∧ (cmd 0x2603D090 live).hres0 = 2049 ∧ (cmd 0x2603D090 live).hres1 = 249978 ∧
    (cmd 0x260F4000 live).hstat.errcode = .validationError := by decide +kernel

theorem test_setrs :
    (cmd 0x270000FF live).img = [(0x34, 0xFF)] ∧ (cmd 0x27000100 live).img = [] ∧
    (cmd 0x27000000 live).hstat.errcode = .validationError := by decide +kernel

theorem test_setvl :
    (cmd 0x2883D090 (live.memWrite 0x4E [0x05])).img = [(0x4E, 0x0D), (0x4F, 0x40)] ∧
    (cmd 0x28CF3FFF (live.memWrite 0x50 [0x00])).img = [(0x50, 0xF8), (0x51, 0xFF)] ∧
    (cmd 0x2840F47A (live.memWrite 0x4C [0x07])).img = [(0x4C, 0x0F), (0x4D, 0x10)] ∧
    (cmd 0x2883D090 live).hstat.errcode = .imageSizeMismatch := by decide +kernel

/-! ### Unpacker and status decoder (95 V6, V7) -/

theorem test_unpack :
    (cmd 0x3000F080 (port (fileWord 0x00 0x80).list onFile)).hres0 = 0xFFFFFFFF ∧
    (cmd 0x30004700 (port (fileWord 0x34 0x12).list onFile)).hres0 = 0x23 ∧
    (cmd 0x30000F00 (port (fileWord 0xFF 0xFF).list onFile)).hres0 = 65535 ∧
    (cmd 0x3000C380 (port (fileWord 0x00 0x90).list onFile)).hres0 = 0xFFFFFFF9 := by decide +kernel

/-- SEXT and CDIV of the bytes the spec lists. -/
theorem test_sext4 :
    [0x00, 0x0F, 0x10, 0x70, 0x7F, 0x80, 0x88, 0x8F, 0x9F, 0xF0, 0xF8, 0xFF].map (fun b => nib b .sext) =
      [0, 0, 1, 7, 7, -8, -8, -8, -7, -1, -1, -1] ∧
    [0x00, 0x0F, 0x10, 0x70, 0x7F, 0x80, 0x88, 0x8F, 0x9F, 0xF0, 0xF8, 0xFF].map (fun b => nib b .cdiv) =
      [0, 0, 1, 7, 7, -8, -7, -7, -6, -1, 0, 0] ∧
    (cmd 0x310000F8 live).hres0 = 0xFFFFFFFF ∧ (cmd 0x310000F8 live).hres1 = 0xF8 := by decide +kernel

theorem test_decauth :
    (cmd 0x38000045 live).hres0 = 0x45 ∧ (cmd 0x38000045 live).hres1 = 1 ∧
    (cmd 0x380000FF live).hres0 = 0xEF ∧ (cmd 0x380000A0 live).hres1 = 3 ∧
    (cmd 0x38000010 live).hres0 = 0 ∧ (cmd 0x38000010 live).hres1 = 2 := by decide +kernel

/-! ### The host interface (95 V8, Q6) -/

theorem test_himgd_wraps :
    let s := { live with himga := 0x7F }.hostWrite 0x1C 0x123456AB
    s.img = [(0x7F, 0xAB)] ∧ s.himga = 0 ∧ s.hostValue 0x2C = 0x80000000 ∧ s.hostValue 0x30 = 0 := by decide +kernel

/-- Q6: a second command while BUSY is dropped; a later illegal word; then both sticky bits are cleared. -/
theorem test_overlap :
    let s := (live.accept 0x04000000).hostWrite 0x00 0x14000000
    let t := goes (step s)
    t.hstat.word = 0x00000012 ∧ (cmd 0 t).hstat.word = 0x00000A36 ∧
      ((cmd 0 t).hostWrite 0x04 0x30).hstat.word = 0x00000A06 := by decide +kernel

/-- The host reads HSTAT between two micro-operations, and sees the command running. -/
theorem test_read_between :
    let s := { live.accept 0x04000000 with host := [.pass, .pass, .read 0x04, .reset] }
    let t := goes (Host.Core.run core 4 s)
    t.reads = [1] ∧ t.trace = [.busW 0x2A 0x15 0x01] ∧ t.hstat.busy = false := by decide +kernel

/-! ### withFetchWord runs the placed row -/

theorem test_fetch_command :
    step (State.reset.withFetchWord 32 0x04000000) = exec .reboot (State.reset.withFetchWord 32 0x04000000) := rfl

theorem test_fetch_control :
    step (State.reset.withFetchWord 8 0x53) = exec .eeErase (State.reset.withFetchWord 8 0x53) := rfl

/-! ### Witnesses: a state and operands that meet all hypotheses of a statement, each clause at its boundary values -/

theorem witness_EncodeOfDecode :
    decode (.command 0x30FEFFFF) = .error .reservedBits ∧ decode (.command 0x30FEFF80) = .ok (.unpack 0xFE 15 15 true) ∧
    decode (.control 0x50) = .ok .eeAuth := ⟨rfl, rfl, rfl⟩

theorem witness_StepRunsDecodedCommand :
    (live.accept 0x04000000).hstat.busy = true ∧ decodeCommand (live.accept 0x04000000).cur = .ok .reboot ∧
    (live.accept 0x04000000).host = [] := ⟨rfl, rfl, rfl⟩

theorem witness_StepRunsDecodedCommand_pass :
    ∃ rest, ((live.accept 0x04000000).setHost [.pass]).host = .pass :: rest := ⟨[], rfl⟩

/-- The first line of LOCK's sub-procedure that writes 0x5F, and the erase of REWRITE. -/
def atErase : State :=
  { filled live with
    hcmd := 0x14000000, cur := 0x14000000, hstat := { live.hstat with busy := true }, pos := rewriteGate + 3
    authByte := 0x40, host := [.pass] }

theorem witness_StepRunsControlCode :
    atErase.hstat.busy = true ∧ atErase.host = .pass :: [] ∧
    atErase.lines[atErase.pos]? = some (.busW regEeControl fun _ => codeEeErase) ∧
    decodeControl codeEeErase = .ok .eeErase := ⟨rfl, rfl, rfl, rfl⟩

theorem witness_ControlCodesDriveMode : live.host = [] := rfl

theorem witness_HcmdWriteAccepts :
    live.hstat.busy = false ∧ (live.setHost [.write 0x00 0x12000000]).host = .write 0x00 0x12000000 :: [] :=
  ⟨rfl, rfl⟩

theorem witness_IllegalCommandCompletes :
    (0x00ABCDEF : Word32).extractLsb' 24 8 = 0 ∧
    (live.accept 0x03000001).hstat.busy = true ∧ legalWord (live.accept 0x03000001).cur = false ∧
    (live.accept 0x03000001).atStart := by decide

/-- Both ways BUSY can rise, the second at the unknown base address. -/
theorem witness_IdleIssuesNoRequest :
    (live.setHost [.write 0x00 0x12000000]).hstat.busy = false ∧
    step (live.setHost [.write 0x00 0x12000000]) = .next (live.accept 0x12000000) ∧
    (live.accept 0x12000000).hstat.busy = true ∧
    step (live.setHost [.writeAt Config.ozecBase 0x12000000]) = .next (live.accept 0x12000000) := by
  refine ⟨rfl, rfl, rfl, ?_⟩
  have h : offsetOf Config.ozecBase = some 0 := by simp [offsetOf]
  change hostTurn (.writeAt Config.ozecBase 0x12000000) [] _ = _
  rw [hostTurn, h]
  rfl

theorem witness_HstatWriteClears :
    ((live.accept 0).setHost [.write 0x04 0x30]).host = .write 0x04 0x30 :: [] := rfl

/-- A state whose last command failed. -/
def failedOnce : State := cmd 0 live

/-- ERR rises in a step that also clears SERR; then SERR is cleared by each of the events named. -/
theorem witness_SerrRecordsErrors :
    let s := { live.accept 0 with host := [.statWith 0x20], hstat := { (live.accept 0).hstat with serr := true } }
    s.hstat.err = false ∧ step s = .next (goes (step s)) ∧ (goes (step s)).hstat.err = true ∧
    failedOnce.hstat.serr = true ∧
    (goes (step (failedOnce.setHost [.write 0x04 0x20]))).hstat.serr = false ∧
    (goes (step (failedOnce.setHost [.statWith 0x20]))).hstat.serr = false ∧
    (goes (step (failedOnce.setHost [.reset]))).hstat.serr = false := ⟨rfl, rfl, rfl, rfl, rfl, rfl, rfl⟩

theorem witness_ConfigWritesReadBack : live.hstat.busy = false := rfl

theorem witness_GuardedWritesDroppedWhileBusy :
    (live.accept 0x12000000).hstat.busy = true ∧ (∀ off ∈ [0x00, 0x10, 0x14, 0x18, 0x1C],
      ((live.accept 0x12000000).setHost [.write off 5]).host = .write off 5 :: []) := by decide

theorem witness_UnmappedOffsetsInert :
    (0x01 % 4 ≠ 0 ∧ 0x2F % 4 ≠ 0 ∧ 0x30 ≤ 0x30) ∧ (0x08 ∈ [0x08, 0x0C, 0x20, 0x24, 0x28, 0x2C]) := by decide

/-- The write at index 127, and a read of a valid byte, idle and BUSY. -/
theorem witness_HimgdAccess :
    { live with himga := 0x7F }.hstat.busy = false ∧
    ((filled live).setHost [.read 0x1C]).host = .read 0x1C :: [] ∧
    (filled live).img.read live.himga.toNat = some 0 ∧
    ((filled live).accept 0x12000000).img.read 0 = some 0 := by decide +kernel

theorem witness_HimgvShowsValidBits : (0 < 4 ∧ 0 < 32) ∧ (3 < 4 ∧ 31 < 32) := by decide

theorem witness_ResetClearsRegisters : (atErase.setHost [.reset, .pass]).host = .reset :: [.pass] := rfl

theorem witness_OutOfDomainRefused :
    (onFile.accept 0x200D0000).atStart ∧ (Instr.cellv 13).wellFormed = false ∧
    (Instr.setrs 0).wellFormed = false ∧ (Instr.setrs 256).wellFormed = false := by decide

theorem witness_PrologueRefusesSubstrate :
    isControl .rewrite = false ∧ (onFile.accept 0x14000000).atStart ∧ Instr.rewrite.wellFormed = true ∧
    needOf .rewrite = .live ∧ (onFile.accept 0x14000000).hcfg.subst = .fileImage ∧
    isControl .rdimg = false ∧ needOf .rdimg ≠ .noSubstrate ∧ Instr.rdimg.wellFormed = true ∧
    ({ live with busReady := false }.accept 0x13000000).atStart ∧
    ({ live with busReady := false }.accept 0x13000000).hcfg.subst = .liveDevice ∧
    ({ live with busReady := false }.accept 0x13000000).busReady = false := by decide

theorem witness_RdregReturnsByte :
    ((chip [dat 0x5A] live).atStartLive ∧ (chip [dat 0x5A] live).chipIn = dat 0x5A :: [] ∧
      answered (dat 0x5A) = true) ∧
    ((chip [silent] live).atStartLive ∧ (chip [silent] live).chipIn = silent :: [] ∧ answered silent = false) := by
  decide

theorem witness_RegisterWriteCommands : (live.accept 0x04000000).atStartLive := by decide

/-- The three outcomes on an acknowledged answer, and a missing acknowledge. -/
theorem witness_ChipidChecksIdentity :
    (chip [dat 2] live).atStartLive ∧ (chip [dat 2] live).chipIn = dat 2 :: [] ∧ answered (dat 2) = true ∧
    (chip [dat 3] live).chipIn = dat 3 :: [] ∧ answered (dat 3) = true ∧
    { live with hcfg := { live.hcfg with force := true } }.atStartLive ∧
    (chip [silent] live).chipIn = silent :: [] ∧ answered silent = false := by decide

/-- LOCK at its poll line, with a bound of HPOLL. -/
def polling (n : Word32) (l : List BusAnswer) : State :=
  { live with
    hcmd := 0x12000000, cur := 0x12000000, hstat := { live.hstat with busy := true }, pos := 2, hpoll := n, chipIn := l }

theorem witness_UnboundedPollNeverEnds :
    let s := polling 0 [dat 0x80, dat 0x80, dat 0xFF, dat 0x00]
    s.hstat.busy = true ∧ s.host = [] ∧ s.lines[s.pos]? = some .poll ∧ s.hpoll = 0 ∧
    s.chipIn = [dat 0x80, dat 0x80, dat 0xFF] ++ [dat 0x00] ∧
    (∀ a ∈ [dat 0x80, dat 0x80, dat 0xFF], busyPoll a) := ⟨rfl, rfl, rfl, rfl, rfl, by decide⟩

/-- A bound of 1, and the largest bound one poll before it. -/
theorem witness_BoundedPollEnds :
    let s := polling 1 [dat 0x80]
    let t := (polling 0xFFFFFFFF [dat 0x80]).setPollcnt 0xFFFFFFFE
    (s.hstat.busy = true ∧ s.host = [] ∧ s.lines[s.pos]? = some .poll ∧ s.hpoll ≠ 0 ∧ s.pollcnt < s.hpoll) ∧
    (t.hstat.busy = true ∧ t.host = [] ∧ t.lines[t.pos]? = some .poll ∧ t.hpoll ≠ 0 ∧ t.pollcnt < t.hpoll) :=
  ⟨⟨rfl, rfl, rfl, by decide, by decide⟩, ⟨rfl, rfl, rfl, by decide, by decide⟩⟩

theorem witness_LockTimesOutAfterBound :
    let s := chip [dat 0x80, dat 0xC0, dat 0x00] ({ live with hpoll := 2 }.accept 0x12000000)
    s.hstat.busy = true ∧ s.fetch = .ok .lock ∧ s.atStartLive ∧ s.hpoll ≠ 0 ∧
    [dat 0x80, dat 0xC0].length = s.hpoll.toNat ∧ s.chipIn = [dat 0x80, dat 0xC0] ++ [dat 0x00] ∧
    (∀ a ∈ [dat 0x80, dat 0xC0], busyPoll a) :=
  ⟨rfl, rfl, by decide, by decide, rfl, rfl, by decide⟩

theorem witness_LockReleases :
    (chip [dat 0x7F] live).atStartLive ∧ (chip [dat 0x7F] live).chipIn = dat 0x7F :: [] ∧ quiet (dat 0x7F) := by decide

/-- Both substrates, and on the file each error: IOERR, the sizes beside 128, and IOERR of the read. -/
theorem witness_RdwordReadsWord :
    (eaddrOk 0 = true ∧ eaddrOk 126 = true) ∧
    ((chip (word 0x34 0x12).list live).atStartLive ∧
      (chip (word 0x34 0x12).list live).chipIn = (word 0x34 0x12).list ++ [] ∧ (word 0x34 0x12).good) ∧
    ((port (fileWord 0x34 0x12).list onFile).atStartFile ∧
      (port (fileWord 0x34 0x12).list onFile).fileIn = (fileWord 0x34 0x12).list ++ [] ∧
      (fileWord 0x34 0x12).good) ∧
    (let bad : FileAnswer := ⟨true, 128, []⟩;
      (port [bad] onFile).atStartFile ∧ (port [bad] onFile).fileIn = bad :: [] ∧ bad.ioerr = true) ∧
    (∀ size ∈ [127, 129],
      (port [⟨false, size, []⟩] onFile).fileIn = ⟨false, size, []⟩ :: [] ∧ size ≠ 128) ∧
    (port [⟨false, 128, []⟩, ⟨true, 0, []⟩] onFile).fileIn = ⟨false, 128, []⟩ :: ⟨true, 0, []⟩ :: [] := by decide

theorem witness_RdwordNackLeavesUnlocked :
    let w : WordAnswers := { word 0x34 0x12 with lo := silent }
    let l := [w.p1, w.p2, w.p3, w.hi, w.p4, w.lo]
    (chip l live).atStartLive ∧ eaddrOk 126 = true ∧ (chip l live).chipIn = l ++ [] ∧
    quiet w.p1 ∧ quiet w.p2 ∧ quiet w.p3 ∧ answered w.hi = true ∧ quiet w.p4 ∧ answered w.lo = false := by decide

theorem witness_WrwordWritesWord :
    (chip polls.list live).atStartLive ∧ (eaddrOk 0 = true ∧ eaddrOk 126 = true) ∧
    (chip polls.list live).chipIn = polls.list ++ [] ∧ polls.good := by decide

/-- The words of an image: word k holds the bytes 2k and 255 - 2k. -/
def words (k : Nat) : WordAnswers := word (BitVec.ofNat 8 (2 * k)) (BitVec.ofNat 8 (255 - 2 * k))

/-- The same from a file. -/
def fileWords (k : Nat) : FileWord := fileWord (BitVec.ofNat 8 (2 * k)) (BitVec.ofNat 8 (255 - 2 * k))

theorem witness_RdimgLiveFillsImage :
    let l := (List.range 64).flatMap fun k => (words k).list
    (chip l live).atStartLive ∧ (chip l live).chipIn = l ++ [] ∧ ∀ k < 64, (words k).good := by decide +kernel

theorem witness_RdimgFileFillsImage :
    let l := (List.range 64).flatMap fun k => (fileWords k).list
    (port l onFile).atStartFile ∧ (port l onFile).fileIn = l ++ [] ∧ ∀ k < 64, (fileWords k).good := by decide +kernel

/-- No word read and all but one; a NACK at the word's first and last read, and the time-out there; a file error. -/
theorem witness_RdimgErrorKeepsWords :
    let l := (List.range 63).flatMap fun k => (words k).list
    let f := (List.range 63).flatMap fun k => (fileWords k).list
    let ok : FileAnswer := ⟨false, 128, []⟩
    ((0 < 64 ∧ 63 < 64) ∧ (0 < 7 ∧ 6 < 7) ∧ live.hres0 = 0 ∧ onFile.hres0 = 0 ∧ answered silent = false ∧
      busyPoll (dat 0x80) ∧ { live with hpoll := 1 }.hpoll = 1 ∧ (0 ∈ [0, 1, 2, 4, 6] ∧ 6 ∈ [0, 1, 2, 4, 6])) ∧
    ((chip [silent] live).atStartLive ∧
      (chip [silent] live).chipIn =
        ((List.range 0).flatMap fun k => (words k).list) ++ (words 0).list.take 0 ++ silent :: []) ∧
    (let c := l ++ (words 63).list.take 6 ++ [dat 0x80];
      (chip c { live with hpoll := 1 }).atStartLive ∧
        (chip c live).chipIn = l ++ (words 63).list.take 6 ++ dat 0x80 :: [] ∧ ∀ k ≤ 63, (words k).good) ∧
    ((port (f ++ [ok, ⟨true, 0, []⟩]) onFile).atStartFile ∧
      (port (f ++ [ok, ⟨true, 0, []⟩]) onFile).fileIn = f ++ ok :: ⟨true, 0, []⟩ :: [] ∧ ∀ k < 63, (fileWords k).good) ∧
    ((⟨true, 0, []⟩ : FileAnswer).ioerr = true ∧ (⟨false, 127, []⟩ : FileAnswer).size ≠ 128) := by decide +kernel

/-- Each of LOADIMG's four clauses, the sizes on both sides of 128. -/
theorem witness_LoadimgFillsImage :
    let good : FileAnswer := ⟨false, 128, []⟩
    let bad : FileAnswer := ⟨true, 128, []⟩
    (port [good, good] live).atStart ∧ (port [good, good] live).fileIn = good :: good :: [] ∧
    (good.ioerr = false ∧ good.size = 128) ∧ bad.ioerr = true ∧
    (port [bad, good] live).fileIn = bad :: good :: [] ∧ (port [good, bad] live).fileIn = good :: bad :: [] ∧
    ((⟨false, 127, []⟩ : FileAnswer).ioerr = false ∧ (⟨false, 127, []⟩ : FileAnswer).size ≠ 128) ∧
    ((⟨false, 129, []⟩ : FileAnswer).ioerr = false ∧ (⟨false, 129, []⟩ : FileAnswer).size ≠ 128) := by decide

theorem witness_SaveimgWritesWholeImage :
    (port [⟨false, 0, []⟩] (filled live)).atStart ∧
    (∀ j < 128, (filled live).img.read j = some (BitVec.ofNat 8 j)) ∧
    (port [⟨false, 0, []⟩] (filled live)).fileIn = ⟨false, 0, []⟩ :: [] ∧
    (port [⟨true, 0, []⟩] (filled live)).fileIn = ⟨true, 0, []⟩ :: [] := by decide +kernel

/-- IMG with only byte 127 missing, and an empty one; SAVEIMG on the file substrate with BUS_READY 0. -/
theorem witness_IncompleteImageRefused :
    let s := live.setImg ((List.range 127).map fun j => (j, 0))
    let t := { onFile with busReady := false }
    (127 < 128 ∧ s.img.valid 127 = false ∧ s.atStartLive) ∧ (0 < 128 ∧ t.img.valid 0 = false ∧ t.atStart) := by
  decide +kernel

theorem witness_RewriteGrantedWritesImage :
    let w := word 0x34 0x12
    let l := w.list ++ [dat 0, dat 0x45, dat 0, dat 0] ++ (List.range 64).flatMap fun _ => polls.list
    let s := chip l (filled live)
    s.atStartLive ∧ (∀ j < 128, s.img.read j = some (BitVec.ofNat 8 j)) ∧ s.chipIn = l ++ [] ∧ w.good ∧ quiet (dat 0) ∧
    answered (dat 0x45) = true ∧ polls.good ∧ (dat 0x45).data.getLsbD 6 = true := by decide +kernel

theorem witness_RewriteRejectedWritesNothing :
    let w := word 0x34 0x12
    let l := w.list ++ [dat 0, dat 0x80, dat 0]
    let s := chip l (filled live)
    s.atStartLive ∧ s.img.complete = true ∧ s.chipIn = l ++ [] ∧ w.good ∧ quiet (dat 0) ∧
    answered (dat 0x80) = true ∧ (dat 0x80).data.getLsbD 6 = false ∧
    answered (dat 0xBF) = true ∧ (dat 0xBF).data.getLsbD 6 = false := by decide +kernel

/-- The state of a running command whose decoding is known satisfies the invariant when its plain facts do. -/
theorem inv_of_running {s : State} (j : Instr) (hf : s.fetch = .ok j) (hw : j.wellFormed = true)
    (hn : needOf j = .live → s.hcfg.subst = .liveDevice)
    (hg : j = .rewrite → rewriteGate < s.pos → s.authByte.getLsbD bitPwdOk = true)
    (hi : s.img.wf) (hc : s.cur = s.hcmd) (hp : s.pos < s.lines.length)
    (hh : s.hstat = { Hstat.reset with busy := true }) (hx : s.widx = 0) : s.Inv where
  img := hi
  cur := hc
  position _ := hp
  running _ := by rw [hh]; decide
  errcode := by rw [hh]; decide
  completed := by rw [hh]; decide
  locked := by rw [hh]; decide
  moded := by rw [hh]; decide
  widx := by rw [hx]; decide
  admitted _ _ i h := by
    rw [hf] at h
    cases h
    exact ⟨hw, hn⟩
  granted _ h := by
    rw [hf] at h
    cases h
    exact hg rfl

theorem atErase_inv : atErase.Inv :=
  inv_of_running .rewrite rfl rfl (fun _ => rfl) (fun _ _ => rfl) (by decide +kernel) rfl (by decide +kernel) rfl rfl

/-- WRREG 0x5F, 0x53 past its prologue. -/
def atRawErase : State := { live.accept 0x025F5300 with pos := 1, host := [.pass] }

theorem atRawErase_inv : atRawErase.Inv :=
  inv_of_running (.wrreg 0x5F 0x53) rfl rfl (fun _ => rfl) (fun h => by cases h) (by decide) rfl (by decide) rfl rfl

theorem witness_EraseNeedsPasswordOk :
    (atErase.Inv ∧ step atErase = .next (goes (step atErase)) ∧
      .busW 0x2A 0x5F 0x53 ∈ (goes (step atErase)).trace.drop atErase.trace.length) ∧
    (atRawErase.Inv ∧ step atRawErase = .next (goes (step atRawErase)) ∧
      .busW 0x2A 0x5F 0x53 ∈ (goes (step atRawErase)).trace.drop atRawErase.trace.length) ∧
    (Request.busW 0x2A 0x5F 0x53).isModeWrite 0x53 = true :=
  ⟨⟨atErase_inv, rfl, by decide +kernel⟩, ⟨atRawErase_inv, rfl, by decide +kernel⟩, rfl⟩

theorem witness_CellvDecodesVoltage :
    (chip [dat 0x08, dat 0x10] live).atStartLive ∧ ((0 : Byte).toNat ≤ 12 ∧ (12 : Byte).toNat ≤ 12) ∧
    (chip [dat 0x08, dat 0x10] live).chipIn = dat 0x08 :: dat 0x10 :: [] ∧ answered (dat 0x08) = true ∧
    answered (dat 0x10) = true := by decide

theorem witness_CurrDecodesCurrent :
    let l := dat 0xE8 :: dat 0x03 :: ((word 0 0).list ++ [])
    (chip l live).atStartLive ∧ (chip l live).chipIn = l ∧ answered (dat 0xE8) = true ∧ answered (dat 0x03) = true ∧
    (word 0 0).good := by decide

theorem witness_RsenseReadsResistor :
    ((chip (word 0xFF 0).list live).atStartLive ∧
      (chip (word 0xFF 0).list live).chipIn = (word 0xFF 0).list ++ [] ∧ (word 0xFF 0).good) ∧
    ((port (fileWord 0 0).list onFile).atStartFile ∧
      (port (fileWord 0 0).list onFile).fileIn = (fileWord 0 0).list ++ [] ∧ (fileWord 0 0).good) := by decide

/-- Both selectors, the narrowest and the widest field, at both ends of the word. -/
theorem witness_LimitDecodesCurrentLimit :
    ((0 : Byte).toNat ≤ 1 ∧ (1 : Byte).toNat ≤ 1) ∧ ((0 : BitVec 4).toNat ≤ 7 ∧ (7 : BitVec 4).toNat ≤ 7) ∧
    ((15 : BitVec 4).toNat + (0 : BitVec 4).toNat + 1 ≤ 16 ∧ (8 : BitVec 4).toNat + (7 : BitVec 4).toNat + 1 ≤ 16) ∧
    (let l := (word 0xC3 0xA5).list ++ (word 0xF8 0).list ++ (word 0x32 0).list;
      (chip l live).atStartLive ∧ (chip l live).chipIn = l ++ [] ∧ (word 0xC3 0xA5).good ∧ (word 0xF8 0).good ∧
        (word 0x32 0).good) ∧
    (let l := (fileWord 0x64 0).list ++ (fileWord 0x20 0).list ++ (fileWord 0 0).list;
      (port l onFile).atStartFile ∧ (port l onFile).fileIn = l ++ [] ∧ (fileWord 0x64 0).good ∧
        (fileWord 0x20 0).good ∧ (fileWord 0 0).good) := by decide

theorem witness_ThreshDecodesVoltage :
    ((0 : Byte).toNat ≤ 3 ∧ (3 : Byte).toNat ≤ 3) ∧
    ((chip (word 0x0D 0x40).list live).atStartLive ∧
      (chip (word 0x0D 0x40).list live).chipIn = (word 0x0D 0x40).list ++ [] ∧ (word 0x0D 0x40).good) ∧
    ((port (fileWord 0x0D 0x40).list onFile).atStartFile ∧
      (port (fileWord 0x0D 0x40).list onFile).fileIn = (fileWord 0x0D 0x40).list ++ [] ∧
      (fileWord 0x0D 0x40).good) := by decide

theorem witness_VoltageConversions : live.atStart ∧ (0 : BitVec 24).toNat < 999424 ∧ (999423 : BitVec 24).toNat < 999424 := by
  decide

theorem witness_SetrsStoresResistor :
    live.atStart ∧ (1 ≤ (1 : BitVec 16).toNat ∧ (1 : BitVec 16).toNat ≤ 255) ∧
    (1 ≤ (255 : BitVec 16).toNat ∧ (255 : BitVec 16).toNat ≤ 255) := by decide

theorem witness_SetvlStoresThreshold :
    ((filled live).atStart ∧ ((0 : BitVec 20).toNat < 999424 ∧ (999423 : BitVec 20).toNat < 999424) ∧
      (filled live).img.read (0x4A + 2 * (0 : BitVec 2).toNat) = some 0x4A ∧
      (filled live).img.read (0x4A + 2 * (3 : BitVec 2).toNat) = some 0x50) ∧
    (live.atStart ∧ live.img.valid (0x4A + 2 * (0 : BitVec 2).toNat) = false ∧
      live.img.valid (0x4A + 2 * (3 : BitVec 2).toNat) = false) := by decide +kernel

theorem witness_VoltageScaleInverse : (0 ≤ 8191 ∧ 8191 ≤ 8191) ∧ (0 ≤ 999423 ∧ 999423 ≤ 999423) := by decide

theorem witness_DecoderResultsFit :
    (255 : Nat) ≤ 255 ∧ |(-250019840 : Int)| ≤ 250019840 ∧ (0 ≤ 8191 ∧ 8191 ≤ 8191) := by decide

/-- The whole word, and one bit at its top, on either substrate. -/
theorem witness_UnpackExtractsField :
    (eaddrOk 0 = true ∧ eaddrOk 126 = true) ∧
    ((0 : BitVec 4).toNat + (15 : BitVec 4).toNat + 1 ≤ 16 ∧ (15 : BitVec 4).toNat + (0 : BitVec 4).toNat + 1 ≤ 16) ∧
    ((chip (word 0 0x80).list live).atStartLive ∧
      (chip (word 0 0x80).list live).chipIn = (word 0 0x80).list ++ [] ∧ (word 0 0x80).good) ∧
    ((port (fileWord 0 0x80).list onFile).atStartFile ∧
      (port (fileWord 0 0x80).list onFile).fileIn = (fileWord 0 0x80).list ++ [] ∧ (fileWord 0 0x80).good) := by decide

theorem witness_ByteDecoders : live.atStart := by decide

/-- Reset satisfies the invariant; the last clauses speak of running commands only. -/
theorem witness_StepKeepsInv : atErase.Inv ∧ atRawErase.Inv := ⟨atErase_inv, atRawErase_inv⟩

theorem witness_CommandsKeepHostSide : exec .reboot live = .next (goes (exec .reboot live)) := rfl

theorem witness_OnlyControlCodesReachChip :
    (step atErase = .next (goes (step atErase)) ∧
      .busW 0x2A 0x5F 0x53 ∈ (goes (step atErase)).trace.drop atErase.trace.length) ∧
    (let s := live.accept 0x025FFF00;
      step s = .next (goes (step s)) ∧ .busW 0x2A 0x5F 0xFF ∈ (goes (step s)).trace.drop s.trace.length) :=
  ⟨⟨rfl, by decide +kernel⟩, ⟨rfl, by decide +kernel⟩⟩

/-- RDWORD 126 at its address write, and WRREG 0x5E, 0x01. -/
def atAddress : State := { live.accept 0x107E0000 with pos := 3, host := [.pass] }

/-- WRREG 0x5E, 0x01 past its prologue. -/
def atRawAddress : State := { live.accept 0x025E0100 with pos := 1, host := [.pass] }

theorem witness_BadEepromAddressNeverReachesChip :
    (atAddress.Inv ∧ step atAddress = .next (goes (step atAddress)) ∧
      .busW 0x2A 0x5E 126 ∈ (goes (step atAddress)).trace.drop atAddress.trace.length) ∧
    (atRawAddress.Inv ∧ step atRawAddress = .next (goes (step atRawAddress)) ∧
      .busW 0x2A 0x5E 0x01 ∈ (goes (step atRawAddress)).trace.drop atRawAddress.trace.length) :=
  ⟨⟨inv_of_running (.rdword 126) rfl rfl (fun h => by cases h) (fun h => by cases h) (by decide) rfl (by decide) rfl rfl,
      rfl, by decide +kernel⟩,
    ⟨inv_of_running (.wrreg 0x5E 0x01) rfl rfl (fun _ => rfl) (fun h => by cases h) (by decide) rfl (by decide) rfl rfl,
      rfl, by decide +kernel⟩⟩

/-- RSENSE on the file, at its first file request. -/
def atFileSize : State := { port (fileWord 0x19 0).list (onFile.accept 0x22000000) with pos := 1, host := [.pass] }

theorem witness_FileSubstrateNeverUsesBus :
    atFileSize.Inv ∧ atFileSize.hcfg.subst = .fileImage ∧ step atFileSize = .next (goes (step atFileSize)) ∧
    .fileSize ∈ (goes (step atFileSize)).trace.drop atFileSize.trace.length :=
  ⟨inv_of_running .rsense rfl rfl (fun h => by cases h) (fun h => by cases h) (by decide) rfl (by decide) rfl rfl, rfl,
    rfl, by decide +kernel⟩

/-- AUTHST changes under REWRITE and at an acceptance; WARN is set by CHIPID. -/
theorem witness_OnlyRewriteSetsAuthst :
    (let s := chip (authAnswers 0x80) ((filled live).accept 0x14000000);
      step s = .next (goes (step s)) ∧ (goes (step s)).hstat.authst ≠ s.hstat.authst) ∧
    (let s := { live with hstat := { live.hstat with authst := .busy }, host := [.write 0 0] };
      step s = .next (goes (step s)) ∧ (goes (step s)).hstat.authst ≠ s.hstat.authst) ∧
    (let s := chip [dat 3] ({ live with hcfg := { live.hcfg with force := true } }.accept 0x03000000);
      step s = .next (goes (step s)) ∧ (goes (step s)).hstat.warn = true) :=
  ⟨⟨rfl, by decide +kernel⟩, ⟨rfl, by decide +kernel⟩, ⟨rfl, by decide +kernel⟩⟩

end Sys2Proof.Tests
end

section
/-! What one line of a program can do: the request it issues, the computation it performs, and how it ends; and that
every line of every command is a plain computation, but for CHIPID's check and REWRITE's two lines on the
authentication status. -/

namespace Sys2Proof.Machine

/-! ### A line's request and a line's computation -/

/-- u is s after at most one request: the ports, the log, the poll's temporaries, PHASE and LASTMODE may differ. -/
structure State.Requested (s u : State) : Prop where
  frame : u = { s with
    chipIn := u.chipIn, fileIn := u.fileIn, draws := u.draws, trace := u.trace, tmp := u.tmp, pollcnt := u.pollcnt
    hstat := u.hstat }
  hstat : u.hstat = s.hstat ∨ (∃ reg, u.hstat = s.hstat.afterRead reg) ∨
    ∃ reg v, u.hstat = s.hstat.afterWrite reg v

theorem State.Requested.refl (s : State) : s.Requested s := ⟨rfl, .inl rfl⟩

theorem State.requested_busRead (s : State) (reg : Byte) : s.Requested (s.busRead reg) := by
  rw [busRead_eq]
  exact ⟨rfl, .inr (.inl ⟨reg, rfl⟩)⟩

theorem State.requested_busWrite (s : State) (reg v : Byte) : s.Requested (s.busWrite reg v) :=
  ⟨rfl, .inr (.inr ⟨reg, v, rfl⟩)⟩

theorem State.requested_file (s : State) (r : Request) : s.Requested (s.dropFile.request r) := by
  rcases dropFile_cases s with ⟨_, _, -, -, h⟩ | ⟨-, -, h⟩ <;> rw [h] <;> exact ⟨rfl, .inl rfl⟩

theorem State.Requested.setTmp {s u : State} (h : s.Requested u) (x : Temps) : s.Requested (u.setTmp x) := by
  obtain ⟨hframe, hhstat⟩ := h
  exact ⟨congrArg (·.setTmp x) hframe, hhstat⟩

theorem State.Requested.setPollcnt {s u : State} (h : s.Requested u) (x : Word32) :
    s.Requested (u.setPollcnt x) := by
  obtain ⟨hframe, hhstat⟩ := h
  exact ⟨congrArg (·.setPollcnt x) hframe, hhstat⟩

/-- v is what the line's own computation, or its store of a read byte, makes of u. -/
def MicroOp.Computes (op : MicroOp) (u v : State) : Prop :=
  match op with
  | .compute f => f u = .ok v
  | .busR _ store => ∃ x, v = store x u
  | _ => False

/-- The line's own computation raises an error in u. -/
def MicroOp.Refuses (op : MicroOp) (u : State) (code : ErrCode) : Prop :=
  match op with
  | .compute f => f u = .error code
  | _ => False

/-- A file request whose answer goes to the temporaries goes on, or ends with IO_FAILURE. -/
theorem performFile_cases (r : Request) (s : State) {use : FileAnswer → State → State}
    (huse : ∀ a u, s.Requested u → s.Requested (use a u)) :
    (∃ u, s.Requested u ∧ performFile r use s = .advance u) ∨
    (∃ u, s.Requested u ∧ performFile r use s = .ended (u.raise .ioFailure)) := by
  have hreq := s.requested_file r
  unfold performFile
  split
  · exact .inr ⟨_, hreq, rfl⟩
  · exact .inl ⟨_, huse _ _ hreq, rfl⟩

/-- Everything a line can do: go on after its request and its computation, ask for the same line again, finish, or
raise an error. -/
theorem perform_cases (op : MicroOp) (s : State) :
    (∃ u v, s.Requested u ∧ (v = u ∨ op.Computes u v) ∧ op.perform s = .advance v) ∨
    (∃ u, s.Requested u ∧ op.perform s = .again u) ∨
    (∃ u, s.Requested u ∧ op.perform s = .ended u.finish) ∨
    (∃ u code, s.Requested u ∧ (code ≠ .none ∨ op.Refuses s code) ∧ op.perform s = .ended (u.raise code)) := by
  cases op with
  | compute f =>
    cases h : f s with
    | ok v => exact .inl ⟨s, v, .refl s, .inr h, by simp [MicroOp.perform, h]⟩
    | error code => exact .inr (.inr (.inr ⟨s, code, .refl s, .inr h, by simp [MicroOp.perform, h]⟩))
  | poll =>
    have hread := s.requested_busRead regEeControl
    rcases perform_poll_cases s with ⟨-, h⟩ | ⟨-, t, rfl, ⟨-, h⟩ | ⟨-, -, -, h⟩ | ⟨-, -, h⟩⟩
    · exact .inr (.inr (.inr ⟨_, _, hread, .inl (by decide), h⟩))
    · exact .inl ⟨_, _, (hread.setTmp _).setPollcnt _, .inl rfl, h⟩
    · exact .inr (.inr (.inr ⟨_, _, (hread.setTmp _).setPollcnt _, .inl (by decide), h⟩))
    · exact .inr (.inl ⟨_, (hread.setTmp _).setPollcnt _, h⟩)
  | busR reg store =>
    have hread := s.requested_busRead reg
    by_cases ha : answered s.nextBus = false
    · exact .inr (.inr (.inr ⟨_, _, hread, .inl (by decide), if_pos ha⟩))
    · exact .inl ⟨_, _, hread, .inr ⟨_, rfl⟩, if_neg ha⟩
  | busW reg v => exact .inl ⟨_, _, s.requested_busWrite reg (v s), .inl rfl, rfl⟩
  | fileSize =>
    rcases performFile_cases _ s (fun _ _ h => h.setTmp _) with ⟨u, hu, h⟩ | ⟨u, hu, h⟩
    · exact .inl ⟨u, u, hu, .inl rfl, h⟩
    · exact .inr (.inr (.inr ⟨u, _, hu, .inl (by decide), h⟩))
  | fileRead off n =>
    rcases performFile_cases _ s (fun _ _ h => h.setTmp _) with ⟨u, hu, h⟩ | ⟨u, hu, h⟩
    · exact .inl ⟨u, u, hu, .inl rfl, h⟩
    · exact .inr (.inr (.inr ⟨u, _, hu, .inl (by decide), h⟩))
  | fileWriteAll bytes =>
    rcases performFile_cases _ s (fun _ _ h => h) with ⟨u, hu, h⟩ | ⟨u, hu, h⟩
    · exact .inl ⟨u, u, hu, .inl rfl, h⟩
    · exact .inr (.inr (.inr ⟨u, _, hu, .inl (by decide), h⟩))
  | finish => exact .inr (.inr (.inl ⟨s, .refl s, rfl⟩))

/-! ### Plain computations -/

/-- v is u after a plain computation: results, IMG, the word index, PW and temporaries may differ; IMG stays in its
canonical form and the index in its range. -/
structure State.Computed (u v : State) : Prop where
  frame : v = { u with
    hres0 := v.hres0, hres1 := v.hres1, img := v.img, widx := v.widx, pw := v.pw, tmp := v.tmp
    pollcnt := v.pollcnt }
  img : u.img.wf → v.img.wf
  widx : u.widx.toNat ≤ wordCount → v.widx.toNat ≤ wordCount

theorem State.Computed.trans {s t u : State} (h : s.Computed t) (h' : t.Computed u) : s.Computed u where
  frame := by
    obtain ⟨ht, -, -⟩ := h
    obtain ⟨hu, -, -⟩ := h'
    rw [hu, ht]
  img := h'.img ∘ h.img
  widx := h'.widx ∘ h.widx

section
variable (s : State)

@[simp] theorem computed_refl : s.Computed s := ⟨rfl, id, id⟩
@[simp] theorem computed_setTmp (x : Temps) : s.Computed (s.setTmp x) := ⟨rfl, id, id⟩
@[simp] theorem computed_setPollcnt (x : Word32) : s.Computed (s.setPollcnt x) := ⟨rfl, id, id⟩
@[simp] theorem computed_setHres0 (x : Word32) : s.Computed (s.setHres0 x) := ⟨rfl, id, id⟩
@[simp] theorem computed_setHres1 (x : Word32) : s.Computed (s.setHres1 x) := ⟨rfl, id, id⟩
@[simp] theorem computed_setPw (x : Word16) : s.Computed (s.setPw x) := ⟨rfl, id, id⟩

@[simp] theorem computed_storeD (x : Byte) : s.Computed (storeD x s) := computed_setTmp s _
@[simp] theorem computed_storeId (x : Byte) : s.Computed (storeId x s) := computed_setTmp s _
@[simp] theorem computed_storeLo (x : Byte) : s.Computed (storeLo x s) := computed_setTmp s _
@[simp] theorem computed_storeHi (x : Byte) : s.Computed (storeHi x s) := computed_setTmp s _
@[simp] theorem computed_storeB0 (x : Byte) : s.Computed (storeB0 x s) := computed_setTmp s _
@[simp] theorem computed_storeB1 (x : Byte) : s.Computed (storeB1 x s) := computed_setTmp s _
@[simp] theorem computed_storeL0 (x : Byte) : s.Computed (storeL0 x s) := computed_setTmp s _
@[simp] theorem computed_storeL1 (x : Byte) : s.Computed (storeL1 x s) := computed_setTmp s _
@[simp] theorem computed_storeO0 (x : Byte) : s.Computed (storeO0 x s) := computed_setTmp s _
@[simp] theorem computed_storeO1 (x : Byte) : s.Computed (storeO1 x s) := computed_setTmp s _
@[simp] theorem computed_storeR0 (x : Byte) : s.Computed (storeR0 x s) := computed_setTmp s _
@[simp] theorem computed_storeR1 (x : Byte) : s.Computed (storeR1 x s) := computed_setTmp s _
@[simp] theorem computed_storePwLo (x : Byte) : s.Computed (storePwLo x s) := computed_setTmp s _
@[simp] theorem computed_storePwHi (x : Byte) : s.Computed (storePwHi x s) := computed_setTmp s _
@[simp] theorem computed_storeA (x : Byte) : s.Computed (storeA x s) := computed_setTmp s _
@[simp] theorem computed_storeCode (x : Nat) : s.Computed (storeCode x s) := computed_setTmp s _
@[simp] theorem computed_storeRaw (x : Int) : s.Computed (storeRaw x s) := computed_setTmp s _
@[simp] theorem computed_storeT (x : Nat) : s.Computed (storeT x s) := computed_setTmp s _
@[simp] theorem computed_storeW (x : Word16) : s.Computed (storeW x s) := computed_setTmp s _
@[simp] theorem computed_storeWidth (x : Nat) : s.Computed (storeWidth x s) := computed_setTmp s _
@[simp] theorem computed_storeV (x : Nat) : s.Computed (storeV x s) := computed_setTmp s _
@[simp] theorem computed_storeO (x : Int) : s.Computed (storeO x s) := computed_setTmp s _

@[simp] theorem computed_memWrite (a : Nat) (bytes : List Byte) : s.Computed (s.memWrite a bytes) :=
  ⟨rfl, fun h => State.memWrite_wf h a bytes, id⟩

/-- The word index of a loop over IMG's words is 0..64 (10_state R38). -/
theorem computed_setWidx {k : Nat} (h : k ≤ wordCount) : s.Computed (s.setWidx (BitVec.ofNat 7 k)) :=
  ⟨rfl, id, fun _ => (Nat.mod_le k (2 ^ 7)).trans h⟩

end

/-- A line whose own computation is plain, and raises only real errors. -/
structure MicroOp.Plain (op : MicroOp) : Prop where
  computed : ∀ u v, op.Computes u v → u.Computed v
  code : ∀ u code, op.Refuses u code → code ≠ .none

@[simp] theorem plain_act {f : State → State} (h : ∀ s : State, s.Computed (f s)) : (act f).Plain where
  computed u v huv := by
    obtain rfl : f u = v := Except.ok.inj huv
    exact h u
  code _ _ hr := by cases hr

@[simp] theorem plain_require {p : State → Bool} {code : ErrCode} (h : code ≠ .none) : (require p code).Plain where
  computed u v huv := by
    simp only [require, MicroOp.Computes] at huv
    split at huv <;> cases huv
    exact computed_refl u
  code u c hr := by
    simp only [require, MicroOp.Refuses] at hr
    split at hr <;> cases hr
    exact h

theorem plain_refusal {code : ErrCode} (h : code ≠ .none) : (MicroOp.compute fun _ => .error code).Plain where
  computed _ _ hc := by cases hc
  code _ _ hr := by
    cases hr
    exact h

@[simp] theorem plain_prologue (d : Bool) (need : Need) : (MicroOp.compute (prologue d need)).Plain where
  computed u v huv := by
    obtain rfl := prologue_state huv
    exact computed_refl v
  code u c hr := by
    replace hr : prologue d need u = .error c := hr
    rcases prologue_cases d need u with ⟨-, h⟩ | ⟨-, -, -, h⟩ | ⟨-, -, -, -, h⟩ | ⟨-, -, -, h⟩ <;>
      rw [h] at hr <;> cases hr <;> decide

@[simp] theorem plain_busR {reg : Byte} {store : Byte → State → State} (h : ∀ x (s : State), s.Computed (store x s)) :
    (MicroOp.busR reg store).Plain where
  computed u _ := by
    rintro ⟨x, rfl⟩
    exact h x u
  code _ _ hr := hr.elim

/-- A line that only issues its request is plain. -/
theorem plain_of_request {op : MicroOp} (hc : ∀ u v, ¬ op.Computes u v) (hr : ∀ u code, ¬ op.Refuses u code) :
    op.Plain := ⟨fun u v h => absurd h (hc u v), fun u code h => absurd h (hr u code)⟩

@[simp] theorem plain_busW (reg : Byte) (v : State → Byte) : (MicroOp.busW reg v).Plain :=
  plain_of_request (fun _ _ => id) fun _ _ => id
@[simp] theorem plain_poll : MicroOp.poll.Plain :=
  plain_of_request (fun _ _ => id) fun _ _ => id
@[simp] theorem plain_fileSize : MicroOp.fileSize.Plain :=
  plain_of_request (fun _ _ => id) fun _ _ => id
@[simp] theorem plain_fileRead (off n : Nat) : (MicroOp.fileRead off n).Plain :=
  plain_of_request (fun _ _ => id) fun _ _ => id
@[simp] theorem plain_fileWriteAll (bytes : State → List Byte) : (MicroOp.fileWriteAll bytes).Plain :=
  plain_of_request (fun _ _ => id) fun _ _ => id
@[simp] theorem plain_finish : MicroOp.finish.Plain :=
  plain_of_request (fun _ _ => id) fun _ _ => id

/-! ### The lines the commands share -/

theorem plain_waitOps : ∀ op ∈ waitOps, op.Plain := by simp [waitOps]

theorem plain_waitWrite (reg : Byte) (v : State → Byte) : ∀ op ∈ waitWrite reg v, op.Plain := by
  simpa [waitWrite, or_imp, forall_and] using plain_waitOps

theorem plain_waitRead (reg : Byte) {store : Byte → State → State} (h : ∀ x (s : State), s.Computed (store x s)) :
    ∀ op ∈ waitRead reg store, op.Plain := by
  simpa [waitRead, or_imp, forall_and, h] using plain_waitOps

theorem plain_eeReadLive (a : Byte) {store0 store1 : Byte → State → State}
    (h0 : ∀ x (s : State), s.Computed (store0 x s)) (h1 : ∀ x (s : State), s.Computed (store1 x s)) :
    ∀ op ∈ eeReadLive a store0 store1, op.Plain := by
  simp only [eeReadLive, lockOps, List.forall_mem_append]
  exact ⟨⟨⟨⟨plain_waitWrite _ _, plain_waitWrite _ _⟩, plain_waitRead _ h1⟩, plain_waitRead _ h0⟩, plain_waitWrite _ _⟩

end Sys2Proof.Machine
end

section
/-! The lines of every command: the first is the prologue, the last is finish, and all are plain computations but for
CHIPID's check and REWRITE's two lines on the authentication status. -/

namespace Sys2Proof.Machine

/-! ### The sub-procedures -/

theorem plain_eeReadFile (a : Byte) {store0 store1 : Byte → State → State}
    (h0 : ∀ x (s : State), s.Computed (store0 x s)) (h1 : ∀ x (s : State), s.Computed (store1 x s)) :
    ∀ op ∈ eeReadFile a store0 store1, op.Plain := by
  simp only [eeReadFile, requireImageSize, List.forall_mem_cons]
  exact ⟨plain_fileSize, plain_require (by decide), plain_fileRead _ _, plain_act fun s => (h0 _ s).trans (h1 _ _),
    List.forall_mem_nil _⟩

/-- An EeRead into two temporaries, on either substrate. -/
theorem plain_eeRead (subst : Substrate) (a : Byte) {store0 store1 : Byte → State → State}
    (h0 : ∀ x (s : State), s.Computed (store0 x s)) (h1 : ∀ x (s : State), s.Computed (store1 x s)) :
    ∀ op ∈ eeRead subst a store0 store1, op.Plain := by
  cases subst with
  | liveDevice => exact plain_eeReadLive a h0 h1
  | fileImage => exact plain_eeReadFile a h0 h1

theorem plain_eeWrite (a : Byte) (b0 b1 : State → Byte) : ∀ op ∈ eeWrite a b0 b1, op.Plain := by
  simp only [eeWrite, lockOps, List.forall_mem_append]
  exact ⟨⟨⟨⟨plain_waitWrite _ _, plain_waitWrite _ _⟩, plain_waitWrite _ _⟩, plain_waitWrite _ _⟩,
    plain_waitWrite _ _⟩

theorem plain_enterWord {k : Nat} (hk : k < wordCount) : (enterWord k).Plain :=
  plain_act fun s => (computed_setWidx s hk.le).trans (computed_setTmp _ _)

theorem plain_leaveLoop : leaveLoop.Plain := plain_act fun s => computed_setWidx s le_rfl

theorem plain_rdimgWord (subst : Substrate) {k : Nat} (hk : k < wordCount) :
    ∀ op ∈ rdimgWord subst k, op.Plain := by
  simp only [rdimgWord, List.forall_mem_cons, List.forall_mem_append]
  exact ⟨plain_enterWord hk, plain_eeRead _ _ (by simp) (by simp), by simp⟩

theorem plain_eraseOps : ∀ op ∈ eraseOps, op.Plain := by
  simp only [eraseOps, List.forall_mem_append, List.forall_mem_flatMap, List.mem_range, rewriteWord,
    List.forall_mem_cons]
  exact ⟨plain_waitWrite _ _, fun k hk => ⟨plain_enterWord hk, plain_eeWrite _ _ _⟩⟩

/-! ### The commands -/

/-- Every line of a command other than CHIPID and REWRITE is plain. -/
theorem plain_linesOf {i : Instr} (hc : i ≠ .chipid) (hr : i ≠ .rewrite) (subst : Substrate) :
    ∀ op ∈ linesOf i subst, op.Plain := by
  have hread : ∀ a, ∀ op ∈ eeRead subst a storeB0 storeB1, op.Plain := fun a =>
    plain_eeRead subst a (by simp) (by simp)
  cases i with
  | rdreg reg => simp [linesOf, rdregProgram]
  | wrreg reg data => simp [linesOf, wrregProgram]
  | chipid => exact absurd rfl hc
  | reboot => simp [linesOf, rebootProgram]
  | rdword ea =>
    simp only [linesOf, rdwordProgram, List.forall_mem_cons, List.forall_mem_append]
    exact ⟨by simp, hread _, by simp⟩
  | wrword ea b0 b1 =>
    simp only [linesOf, wrwordProgram, List.forall_mem_cons, List.forall_mem_append]
    exact ⟨by simp, plain_eeWrite _ _ _, by simp⟩
  | lock =>
    simp only [linesOf, lockProgram, lockOps, List.forall_mem_cons, List.forall_mem_append]
    exact ⟨by simp, plain_waitWrite _ _, by simp⟩
  | rdimg =>
    simp only [linesOf, rdimgProgram, List.forall_mem_cons, List.forall_mem_append, List.forall_mem_flatMap,
      List.mem_range]
    exact ⟨by simp, fun k hk => plain_rdimgWord subst hk, plain_leaveLoop, by simp⟩
  | rewrite => exact absurd rfl hr
  | loadimg => simp [linesOf, loadimgProgram, requireImageSize]
  | saveimg => simp [linesOf, saveimgProgram, requireComplete]
  | cellv sel => simp [linesOf, cellvProgram]
  | curr =>
    simp only [linesOf, currProgram, List.forall_mem_append]
    exact ⟨⟨by simp, plain_eeReadLive _ (by simp) (by simp)⟩, by simp⟩
  | rsense =>
    simp only [linesOf, rsenseProgram, List.forall_mem_cons, List.forall_mem_append]
    exact ⟨by simp, hread _, by simp⟩
  | limit sel lsb wm1 =>
    simp only [linesOf, limitProgram, List.forall_mem_cons, List.forall_mem_append]
    exact ⟨by simp, by simp,
      ⟨⟨plain_eeRead _ _ (by simp) (by simp),
      plain_eeRead _ _ (by simp) (by simp)⟩,
      plain_eeRead _ _ (by simp) (by simp)⟩,
      by simp⟩
  | thresh sel =>
    simp only [linesOf, threshProgram, List.forall_mem_cons, List.forall_mem_append]
    exact ⟨by simp, by simp, hread _, by simp⟩
  | adc2mv code => simp [linesOf, adc2mvProgram]
  | v2adc x => simp [linesOf, v2adcProgram]
  | setrs t => simp [linesOf, setrsProgram]
  | setvl sel val => simp [linesOf, setvlProgram]
  | unpack ea lsb wm1 sgn =>
    simp only [linesOf, unpackProgram, List.forall_mem_cons, List.forall_mem_append]
    exact ⟨by simp, hread _, by simp⟩
  | sext4 b => simp [linesOf, sext4Program]
  | decauth x => simp [linesOf, decauthProgram]
  | eeLock | eeAuth | eeWrite | eeErase | eeRead => simp [linesOf]

/-- `authByte <- BusR(0x6F)` (42_auth R132, step 4). -/
def readAuthStatus : MicroOp := .busR regAuthStatus fun x s => s.setAuthByte x

/-- `AUTHST <- AuthClass(authByte)` (42_auth R132, step 4). -/
def recordAuthState : MicroOp := act fun s => s.setHstat (s.hstat.withAuth (authClass s.authByte))

theorem chipid_lines {op : MicroOp} (h : op ∈ chipidProgram) : op.Plain ∨ op = .compute checkChipId := by
  simp only [chipidProgram, List.mem_cons, List.not_mem_nil, or_false] at h
  rcases h with rfl | rfl | rfl | rfl | rfl
  · exact .inl (plain_prologue _ _)
  · exact .inl (plain_busR (by simp))
  · exact .inl (by simp)
  · exact .inr rfl
  · exact .inl plain_finish

theorem authOps_lines {op : MicroOp} (h : op ∈ authOps) : op.Plain ∨ op = readAuthStatus ∨ op = recordAuthState := by
  have hread : ∀ op ∈ eeReadLive eePassword storePwLo storePwHi, op.Plain :=
    plain_eeReadLive _ (by simp) (by simp)
  simp only [authOps, lockOps, List.mem_append, List.mem_cons, List.not_mem_nil, or_false] at h
  rcases h with (((h | rfl | rfl) | h) | rfl | rfl | rfl | rfl | rfl) | h
  · exact .inl (hread _ h)
  · exact .inl (plain_act fun s => computed_setPw s _)
  · exact .inl (by simp)
  · exact .inl (plain_waitWrite _ _ _ h)
  · exact .inl (by simp)
  · exact .inl (by simp)
  · exact .inr (.inl rfl)
  · exact .inl (by simp)
  · exact .inr (.inr rfl)
  · exact .inl (plain_waitWrite _ _ _ h)

/-- REWRITE's lines from its step 7 on. -/
def rewriteTail : List MicroOp := eraseOps ++ [leaveLoop, .finish]

theorem plain_rewriteTail : ∀ op ∈ rewriteTail, op.Plain := by
  simp only [rewriteTail, List.forall_mem_append, List.forall_mem_cons]
  exact ⟨plain_eraseOps, plain_leaveLoop, plain_finish, by simp⟩

/-- REWRITE cut at its step 6. -/
theorem rewriteProgram_eq : rewriteProgram =
    (.compute (prologue true .live) :: requireComplete :: authOps) ++ requirePasswordOk :: rewriteTail := by
  simp only [rewriteProgram, rewriteTail, List.append_assoc, List.cons_append, List.nil_append]

theorem rewriteHead_length :
    (MicroOp.compute (prologue true .live) :: requireComplete :: authOps).length = rewriteGate := by
  rw [List.length_cons, List.length_cons, rewriteGate]
  omega

theorem rewrite_lines {op : MicroOp} (h : op ∈ rewriteProgram) :
    op.Plain ∨ op = readAuthStatus ∨ op = recordAuthState := by
  rw [rewriteProgram_eq, List.mem_append, List.mem_cons, List.mem_cons, List.mem_cons] at h
  rcases h with (rfl | rfl | h) | rfl | h
  · exact .inl (plain_prologue _ _)
  · exact .inl (plain_require (by decide))
  · exact authOps_lines h
  · exact .inl (plain_require (by decide))
  · exact .inl (plain_rewriteTail op h)

/-- The line at REWRITE's gate is the PWD_OK test. -/
theorem rewrite_gate : rewriteProgram[rewriteGate]? = some requirePasswordOk := by
  rw [rewriteProgram_eq, ← rewriteHead_length, List.getElem?_append_right le_rfl, Nat.sub_self, List.getElem?_cons_zero]

/-- Past its gate REWRITE's lines are plain. -/
theorem rewrite_past_gate {k : Nat} {op : MicroOp} (h : rewriteProgram[k]? = some op) (hk : rewriteGate < k) :
    op.Plain := by
  obtain ⟨n, rfl⟩ : ∃ n, k = rewriteGate + (n + 1) := ⟨k - rewriteGate - 1, by omega⟩
  rw [rewriteProgram_eq, ← rewriteHead_length, List.getElem?_append_right (by omega), Nat.add_sub_cancel_left,
    List.getElem?_cons_succ] at h
  exact plain_rewriteTail op (List.mem_of_getElem? h)

/-! ### The program of a decoded word -/

/-- The lines of a decoded command, an illegal word's when it names none (30_encoding R89). -/
def linesFor (f : Except DecodeError Instr) (subst : Substrate) : List MicroOp :=
  match f with
  | .ok i => linesOf i subst
  | .error _ => illegalProgram

theorem State.lines_eq (s : State) : s.lines = linesFor s.fetch s.hcfg.subst := by
  unfold State.lines linesFor
  cases s.fetch <;> rfl

/-- A host command or an illegal word, as every fetch gives; not one of the chip's control codes. -/
def HostCommand (f : Except DecodeError Instr) : Prop := ∀ i, f = .ok i → isControl i = false

theorem State.fetch_hostCommand (s : State) : HostCommand s.fetch := fun _ h => fetch_not_control h

/-- Every line is plain, but for CHIPID's check and REWRITE's two on the authentication status. -/
theorem linesFor_cases {f : Except DecodeError Instr} {subst : Substrate} {op : MicroOp}
    (h : op ∈ linesFor f subst) :
    op.Plain ∨ (f = .ok .chipid ∧ op = .compute checkChipId) ∨
    (f = .ok .rewrite ∧ (op = readAuthStatus ∨ op = recordAuthState)) := by
  cases f with
  | error e =>
    obtain rfl := List.mem_singleton.mp h
    exact .inl (plain_refusal (by decide))
  | ok i =>
    by_cases hc : i = .chipid
    · subst hc
      exact (chipid_lines h).imp_right fun h => .inl ⟨rfl, h⟩
    · by_cases hr : i = .rewrite
      · subst hr
        exact (rewrite_lines h).imp_right fun h => .inr ⟨rfl, h⟩
      · exact .inl (plain_linesOf hc hr subst op h)

/-- A command's first line is its prologue (60_exceptions R171). -/
theorem linesOf_first {i : Instr} (h : isControl i = false) (subst : Substrate) :
    ∃ rest, linesOf i subst = .compute (prologue i.wellFormed (needOf i)) :: rest := by
  cases i with
  | eeLock | eeAuth | eeWrite | eeErase | eeRead => cases h
  | _ => exact ⟨_, rfl⟩

/-- A command's last line is finish. -/
theorem linesOf_last {i : Instr} (h : isControl i = false) (subst : Substrate) :
    (linesOf i subst).getLast? = some .finish := by
  cases i with
  | eeLock | eeAuth | eeWrite | eeErase | eeRead => cases h
  | rdreg | wrreg | chipid | reboot | loadimg | saveimg | cellv | adc2mv | v2adc | setrs | setvl | sext4 | decauth => rfl
  | rdword => simp [linesOf, rdwordProgram, List.getLast?_cons, List.getLast?_append]
  | wrword => simp [linesOf, wrwordProgram, List.getLast?_cons, List.getLast?_append]
  | lock => rfl
  | rdimg => simp [linesOf, rdimgProgram, List.getLast?_cons, List.getLast?_append]
  | rewrite => simp [linesOf, rewriteProgram, List.getLast?_cons, List.getLast?_append]
  | curr => simp [linesOf, currProgram, List.getLast?_cons, List.getLast?_append]
  | rsense => simp [linesOf, rsenseProgram, List.getLast?_cons, List.getLast?_append]
  | limit => simp [linesOf, limitProgram, List.getLast?_cons, List.getLast?_append]
  | thresh => simp [linesOf, threshProgram, List.getLast?_cons, List.getLast?_append]
  | unpack => simp [linesOf, unpackProgram, List.getLast?_cons, List.getLast?_append]

theorem linesFor_length_pos {f : Except DecodeError Instr} (hf : HostCommand f) (subst : Substrate) :
    0 < (linesFor f subst).length := by
  cases f with
  | error e => exact Nat.zero_lt_one
  | ok i =>
    obtain ⟨rest, h⟩ := linesOf_first (hf i rfl) subst
    simp [linesFor, h]

/-- A line that goes on is not the last. -/
theorem advance_has_next {f : Except DecodeError Instr} (hf : HostCommand f) {subst : Substrate} {k : Nat}
    {op : MicroOp} {s t : State} (hop : (linesFor f subst)[k]? = some op) (h : op.perform s = .advance t) :
    k + 1 < (linesFor f subst).length := by
  have hk : k < (linesFor f subst).length := (List.getElem?_eq_some_iff.mp hop).1
  by_contra hlast
  cases f with
  | error e =>
    obtain rfl := List.mem_singleton.mp (List.mem_of_getElem? hop)
    cases h
  | ok i =>
    have hfin := linesOf_last (hf i rfl) subst
    rw [List.getLast?_eq_getElem?, show (linesOf i subst).length - 1 = k from by
      change ¬ k + 1 < (linesOf i subst).length at hlast
      change k < (linesOf i subst).length at hk
      omega] at hfin
    obtain rfl : MicroOp.finish = op := Option.some.inj (hfin.symm.trans hop)
    cases h

/-- Past the first line, a command's prologue has let it in: its operands are in their domain, and a command that
needs the live device has it (60_exceptions R171). -/
theorem prologue_admits {i : Instr} (h : isControl i = false) {subst : Substrate} {op : MicroOp} {s t : State}
    (hop : (linesOf i subst)[0]? = some op) (ht : op.perform s = .advance t) :
    i.wellFormed = true ∧ (needOf i = .live → s.hcfg.subst = .liveDevice) := by
  obtain ⟨rest, hl⟩ := linesOf_first h subst
  rw [hl, List.getElem?_cons_zero] at hop
  obtain rfl := Option.some.inj hop
  rcases prologue_cases i.wellFormed (needOf i) s with ⟨-, h⟩ | ⟨-, -, -, h⟩ | ⟨-, -, -, -, h⟩ | ⟨hw, hn, -⟩
  · simp [MicroOp.perform, h] at ht
  · simp [MicroOp.perform, h] at ht
  · simp [MicroOp.perform, h] at ht
  · exact ⟨hw, hn⟩

/-- REWRITE passes its gate only on a status byte with PWD_OK (42_auth R132). -/
theorem requirePasswordOk_grants {s t : State} (h : requirePasswordOk.perform s = .advance t) :
    t = s ∧ s.authByte.getLsbD bitPwdOk = true := by
  cases ha : s.authByte.getLsbD bitPwdOk
  · simp [requirePasswordOk, require, MicroOp.perform, ha] at h
  · exact ⟨by simpa [requirePasswordOk, require, MicroOp.perform, ha] using h.symm, rfl⟩

end Sys2Proof.Machine
end

section
/-! What a turn of a command leaves as it is, by induction over its lines: each line keeps the relation `Leaves`, and
the turn stops there, or finishes the command, or raises an error. -/

namespace Sys2Proof.Machine

/-! ### What holds while a command runs -/

/-- What holds of a state whose sequencer stands at a line of the program of f. -/
structure State.Sound (f : Except DecodeError Instr) (s : State) : Prop where
  img : s.img.wf
  widx : s.widx.toNat ≤ wordCount
  locked : s.hstat.phase = .idle → s.hstat.lastmode = codeEeLock
  moded : s.hstat.phase = .modeSet → s.hstat.lastmode ≠ codeEeLock
  position : s.pos < (linesFor f s.hcfg.subst).length
  admitted : 0 < s.pos → ∀ i, f = .ok i → i.wellFormed = true ∧ (needOf i = .live → s.hcfg.subst = .liveDevice)
  granted : f = .ok .rewrite → rewriteGate < s.pos → s.authByte.getLsbD bitPwdOk = true

/-- What the running program of f leaves as it is from s to t: the host side, HSTAT's completion fields, AUTHST but
for REWRITE, WARN but for CHIPID, and `Sound`. -/
structure State.Leaves (f : Except DecodeError Instr) (s t : State) : Prop where
  hostSide : s.sameHostSide t
  busy : t.hstat.busy = s.hstat.busy
  done : t.hstat.done = s.hstat.done
  err : t.hstat.err = s.hstat.err
  serr : t.hstat.serr = s.hstat.serr
  errcode : t.hstat.errcode = s.hstat.errcode
  authst : f ≠ .ok .rewrite → t.hstat.authst = s.hstat.authst
  warn : f ≠ .ok .chipid → t.hstat.warn = s.hstat.warn
  sound : s.Sound f → t.Sound f

theorem State.sameHostSide.trans {s t u : State} (h : s.sameHostSide t) (h' : t.sameHostSide u) :
    s.sameHostSide u := by
  obtain ⟨h1, h2, h3, h4, h5, h6, h7⟩ := h
  obtain ⟨g1, g2, g3, g4, g5, g6, g7⟩ := h'
  exact ⟨g1.trans h1, g2.trans h2, g3.trans h3, g4.trans h4, g5.trans h5, g6.trans h6, g7.trans h7⟩

theorem State.sameHostSide.hcfg {s t : State} (h : s.sameHostSide t) : t.hcfg = s.hcfg := by
  obtain ⟨-, h, -⟩ := h
  exact h

theorem State.sameHostSide.fetch {s t : State} (h : s.sameHostSide t) : t.fetch = s.fetch := by
  obtain ⟨-, -, -, -, h, -⟩ := h
  exact congrArg decodeCommand h

section
variable {f : Except DecodeError Instr} {s t u v : State}

theorem State.Leaves.refl (s : State) : s.Leaves f s :=
  ⟨⟨rfl, rfl, rfl, rfl, rfl, rfl, rfl⟩, rfl, rfl, rfl, rfl, rfl, fun _ => rfl, fun _ => rfl, id⟩

theorem State.Leaves.trans (h : s.Leaves f t) (h' : t.Leaves f u) : s.Leaves f u where
  hostSide := h.hostSide.trans h'.hostSide
  busy := h'.busy.trans h.busy
  done := h'.done.trans h.done
  err := h'.err.trans h.err
  serr := h'.serr.trans h.serr
  errcode := h'.errcode.trans h.errcode
  authst hf := (h'.authst hf).trans (h.authst hf)
  warn hf := (h'.warn hf).trans (h.warn hf)
  sound := h'.sound ∘ h.sound

/-- The host side's list is no part of what is kept. -/
theorem State.Leaves.setHost (h : s.Leaves f t) (l : List HostAct) : s.Leaves f (t.setHost l) :=
  { h with sound := fun hs => { h.sound hs with } }

/-! ### HSTAT under a transaction -/

/-- PHASE Idle and ModeSet say what LASTMODE is (10_state R29, R30). -/
def Hstat.ModeAgrees (h : Hstat) : Prop :=
  (h.phase = .idle → h.lastmode = codeEeLock) ∧ (h.phase = .modeSet → h.lastmode ≠ codeEeLock)

theorem Hstat.ModeAgrees.afterRead {h : Hstat} (hm : h.ModeAgrees) (reg : Byte) : (h.afterRead reg).ModeAgrees := by
  unfold Hstat.afterRead
  split_ifs
  · exact ⟨nofun, nofun⟩
  · exact hm

theorem Hstat.ModeAgrees.afterWrite {h : Hstat} (hm : h.ModeAgrees) (reg v : Byte) :
    (h.afterWrite reg v).ModeAgrees := by
  unfold Hstat.afterWrite
  split_ifs with hc hv
  · exact ⟨fun _ => hv, nofun⟩
  · exact ⟨nofun, fun _ => hv⟩
  · exact ⟨nofun, nofun⟩
  · exact ⟨nofun, nofun⟩
  · exact hm

/-! ### One line -/

/-- A request keeps everything a line keeps. -/
theorem State.Requested.leaves (h : s.Requested u) : s.Leaves f u := by
  obtain ⟨hframe, hhstat⟩ := h
  have hmode : s.hstat.ModeAgrees → u.hstat.ModeAgrees := by
    intro hm
    rcases hhstat with h | ⟨reg, h⟩ | ⟨reg, v, h⟩ <;> rw [h]
    · exact hm
    · exact hm.afterRead reg
    · exact hm.afterWrite reg v
  have hflags : u.hstat.busy = s.hstat.busy ∧ u.hstat.done = s.hstat.done ∧ u.hstat.err = s.hstat.err ∧
      u.hstat.serr = s.hstat.serr ∧ u.hstat.errcode = s.hstat.errcode ∧ u.hstat.authst = s.hstat.authst ∧
      u.hstat.warn = s.hstat.warn := by
    rcases hhstat with h | ⟨reg, h⟩ | ⟨reg, v, h⟩ <;> simp [h]
  obtain ⟨hbusy, hdone, herr, hserr, hcode, hauth, hwarn⟩ := hflags
  rw [hframe]
  exact ⟨⟨rfl, rfl, rfl, rfl, rfl, rfl, rfl⟩, hbusy, hdone, herr, hserr, hcode, fun _ => hauth, fun _ => hwarn,
    fun hs => { hs with
      locked := (hmode ⟨hs.locked, hs.moded⟩).1
      moded := (hmode ⟨hs.locked, hs.moded⟩).2 }⟩

/-- A plain computation keeps everything a line keeps. -/
theorem State.Computed.leaves (h : u.Computed v) : u.Leaves f v := by
  obtain ⟨hframe, himg, hwidx⟩ := h
  rw [hframe]
  exact ⟨⟨rfl, rfl, rfl, rfl, rfl, rfl, rfl⟩, rfl, rfl, rfl, rfl, rfl, fun _ => rfl, fun _ => rfl,
    fun hs => { hs with img := himg hs.img, widx := hwidx hs.widx }⟩

/-- CHIPID's check changes WARN at most. -/
theorem checkChipId_leaves (h : checkChipId u = .ok v) : u.Leaves (.ok .chipid) v := by
  unfold checkChipId at h
  split_ifs at h <;> cases h
  · exact .refl u
  · exact ⟨⟨rfl, rfl, rfl, rfl, rfl, rfl, rfl⟩, rfl, rfl, rfl, rfl, rfl, fun _ => rfl, fun h => absurd rfl h,
      fun hs => { hs with }⟩

/-- REWRITE's outcome changes AUTHST only. -/
theorem recordAuthState_leaves (h : recordAuthState.Computes u v) : u.Leaves (.ok .rewrite) v := by
  obtain rfl := Except.ok.inj h
  exact ⟨⟨rfl, rfl, rfl, rfl, rfl, rfl, rfl⟩, rfl, rfl, rfl, rfl, rfl, fun h => absurd rfl h, fun _ => rfl,
    fun hs => { hs with }⟩

/-- Reading the status byte changes that byte only; before the gate nothing is known of it. -/
theorem readAuthStatus_leaves (h : readAuthStatus.Computes u v) (hpos : u.pos ≤ rewriteGate) :
    u.Leaves (.ok .rewrite) v := by
  obtain ⟨x, rfl⟩ := h
  exact ⟨⟨rfl, rfl, rfl, rfl, rfl, rfl, rfl⟩, rfl, rfl, rfl, rfl, rfl, fun _ => rfl, fun _ => rfl,
    fun hs => { hs with granted := fun _ hp => absurd hp (not_lt.mpr hpos) }⟩

/-- The status byte is read before the gate. -/
theorem readAuthStatus_before_gate {k : Nat} (h : rewriteProgram[k]? = some readAuthStatus) : k ≤ rewriteGate := by
  by_contra hk
  have hplain := rewrite_past_gate h (not_le.mp hk)
  have hcomp := (hplain.computed (State.reset) (State.reset.setAuthByte 1) ⟨1, rfl⟩).frame
  exact absurd (congrArg State.authByte hcomp) (by decide)

/-- A line's own computation keeps everything a line keeps. -/
theorem computes_leaves {k : Nat} {subst : Substrate} {op : MicroOp} (hop : (linesFor f subst)[k]? = some op)
    (hk : u.pos = k) (h : op.Computes u v) : u.Leaves f v := by
  rcases linesFor_cases (List.mem_of_getElem? hop) with hplain | ⟨rfl, rfl⟩ | ⟨rfl, rfl | rfl⟩
  · exact (hplain.computed u v h).leaves
  · exact checkChipId_leaves h
  · exact readAuthStatus_leaves h (hk ▸ readAuthStatus_before_gate hop)
  · exact recordAuthState_leaves h

/-- Only real errors are raised. -/
theorem refuses_code {subst : Substrate} {op : MicroOp} (hop : op ∈ linesFor f subst) {code : ErrCode}
    (h : op.Refuses u code) : code ≠ .none := by
  rcases linesFor_cases hop with hplain | ⟨-, rfl⟩ | ⟨-, rfl | rfl⟩
  · exact hplain.code u code h
  · replace h : checkChipId u = .error code := h
    unfold checkChipId at h
    split_ifs at h
    cases h
    decide
  · cases h
  · cases h

/-- A line's own computation does not move the sequencer. -/
theorem computes_pos {subst : Substrate} {op : MicroOp} (hop : op ∈ linesFor f subst) (h : op.Computes u v) :
    v.pos = u.pos := by
  rcases linesFor_cases hop with hplain | ⟨-, rfl⟩ | ⟨-, rfl | rfl⟩
  · rw [(hplain.computed u v h).frame]
  · replace h : checkChipId u = .ok v := h
    unfold checkChipId at h
    split_ifs at h <;> cases h <;> rfl
  · obtain ⟨x, rfl⟩ := h
    rfl
  · obtain rfl := Except.ok.inj h
    rfl

/-- The request and the computation of a line that goes on. -/
theorem advance_cases {op : MicroOp} (h : op.perform s = .advance t) :
    ∃ u, s.Requested u ∧ (t = u ∨ op.Computes u t) := by
  rcases perform_cases op s with ⟨u, v, hreq, hcomp, h'⟩ | ⟨u, -, h'⟩ | ⟨u, -, h'⟩ | ⟨u, code, -, -, h'⟩ <;>
    rw [h] at h' <;> cases h'
  exact ⟨u, hreq, hcomp⟩

/-- Past a line that goes on, the prologue has admitted the command. -/
theorem advance_admits (hf : HostCommand f) {op : MicroOp} (hop : (linesFor f s.hcfg.subst)[s.pos]? = some op)
    (h : op.perform s = .advance t) (hs : s.Sound f) {i : Instr} (hi : f = .ok i) :
    i.wellFormed = true ∧ (needOf i = .live → s.hcfg.subst = .liveDevice) := by
  rcases Nat.eq_zero_or_pos s.pos with hzero | hpos
  · subst hi
    exact prologue_admits (hf i rfl) (hzero ▸ hop) h
  · exact hs.admitted hpos i hi

/-- Past a line of REWRITE that goes on and lies at its gate or beyond, the status byte has PWD_OK. -/
theorem advance_grants {op : MicroOp} (hop : rewriteProgram[s.pos]? = some op) (h : op.perform s = .advance t)
    (ht : t.Sound (.ok .rewrite)) (hpos : t.pos = s.pos) (hgate : rewriteGate ≤ s.pos) :
    t.authByte.getLsbD bitPwdOk = true := by
  rcases hgate.eq_or_lt with heq | hlt
  · rw [← heq, rewrite_gate] at hop
    obtain rfl := Option.some.inj hop
    obtain ⟨rfl, hbit⟩ := requirePasswordOk_grants h
    exact hbit
  · exact ht.granted rfl (hpos ▸ hlt)

/-- A line that goes on leads to a state at the next line. -/
theorem advance_leaves (hf : HostCommand f) {op : MicroOp} (hop : (linesFor f s.hcfg.subst)[s.pos]? = some op)
    (h : op.perform s = .advance t) : s.Leaves f t.bump ∧ t.bump.pos = s.pos + 1 := by
  obtain ⟨u, hreq, hcomp⟩ := advance_cases h
  have hupos : u.pos = s.pos := by rw [hreq.frame]
  have hleaves : s.Leaves f t ∧ t.pos = s.pos := by
    rcases hcomp with rfl | hcomp
    · exact ⟨hreq.leaves, hupos⟩
    · exact ⟨hreq.leaves.trans (computes_leaves hop hupos hcomp),
        (computes_pos (List.mem_of_getElem? hop) hcomp).trans hupos⟩
  obtain ⟨hleaves, htpos⟩ := hleaves
  have hcfg : t.hcfg = s.hcfg := hleaves.hostSide.hcfg
  refine ⟨{ hleaves with sound := fun hs => ?_ }, congrArg (· + 1) htpos⟩
  have ht := hleaves.sound hs
  exact { ht with
    position := by
      change t.pos + 1 < (linesFor f t.hcfg.subst).length
      rw [htpos, hcfg]
      exact advance_has_next hf hop h
    admitted := fun _ i hi => by
      change i.wellFormed = true ∧ (needOf i = .live → t.hcfg.subst = .liveDevice)
      rw [hcfg]
      exact advance_admits hf hop h hs hi
    granted := fun hi hp => by
      subst hi
      change rewriteGate < t.pos + 1 at hp
      exact advance_grants (t := t) hop h ht htpos (by omega) }

/-! ### A turn -/

/-- t ends a turn of the program of f from s: the command stands at a line, has finished, or has raised an error. -/
def State.Turn (f : Except DecodeError Instr) (s t : State) : Prop :=
  ∃ u, s.Leaves f u ∧ (t = u ∨ t = u.finish ∨ ∃ code, code ≠ .none ∧ t = u.raise code)

/-- The turn's end uses up a pass of the host side, and changes nothing of the command. -/
theorem State.Turn.endTurn (h : s.Turn f t) : s.Turn f t.endTurn := by
  obtain ⟨l, hl⟩ : ∃ l, t.endTurn = t.setHost l := by
    rcases endTurn_cases t with h | ⟨rest, -, h⟩
    · exact ⟨t.host, h⟩
    · exact ⟨rest, h⟩
  rw [hl]
  obtain ⟨u, hu, rfl | rfl | ⟨code, hcode, rfl⟩⟩ := h
  · exact ⟨_, hu.setHost l, .inl rfl⟩
  · exact ⟨_, hu.setHost l, .inr (.inl rfl)⟩
  · exact ⟨_, hu.setHost l, .inr (.inr ⟨code, hcode, rfl⟩)⟩

/-- What a line that asks for itself again leads to. -/
theorem again_leaves {op : MicroOp} (h : op.perform s = .again t) : s.Leaves f t := by
  rcases perform_cases op s with ⟨u, v, -, -, h'⟩ | ⟨u, hreq, h'⟩ | ⟨u, -, h'⟩ | ⟨u, code, -, -, h'⟩ <;>
    rw [h] at h' <;> cases h'
  exact hreq.leaves

/-- What a line that completes the command leads to. -/
theorem ended_turn {subst : Substrate} {op : MicroOp} (hop : op ∈ linesFor f subst) (h : op.perform s = .ended t) :
    s.Turn f t := by
  rcases perform_cases op s with ⟨u, v, -, -, h'⟩ | ⟨u, -, h'⟩ | ⟨u, hreq, h'⟩ | ⟨u, code, hreq, hcode, h'⟩ <;>
    rw [h] at h' <;> cases h'
  · exact ⟨u, hreq.leaves, .inr (.inl rfl)⟩
  · exact ⟨u, hreq.leaves, .inr (.inr ⟨code, hcode.elim id (refuses_code hop), rfl⟩)⟩

theorem State.Leaves.turn (h : s.Leaves f t) (h' : t.Turn f u) : s.Turn f u := by
  obtain ⟨v, hv, hend⟩ := h'
  exact ⟨v, h.trans hv, hend⟩

/-- Everything a turn of a program can do: no line of it, or `Turn`. -/
theorem runProgram_turn (hf : HostCommand f) (s : State) :
    ((linesFor f s.hcfg.subst).length ≤ s.pos ∧
      runProgram (linesFor f s.hcfg.subst) s = .fault .lostPosition) ∨
    ∃ t, runProgram (linesFor f s.hcfg.subst) s = .next t ∧ s.Turn f t := by
  rcases runProgram_cases (linesFor f s.hcfg.subst) s with ⟨-, h⟩ | h
  · refine .inr ⟨_, h, ?_⟩
    refine runOps_induction (P := fun k u => s.Leaves f u ∧ u.pos = k) (Q := s.Turn f) ?_ ?_ ?_ ?_ s.pos s
      ⟨.refl s, rfl⟩
    · rintro k op u t hop ⟨hu, rfl⟩ ht
      rw [← hu.hostSide.hcfg] at hop
      obtain ⟨hleaves, hpos⟩ := advance_leaves hf hop ht
      exact ⟨hu.trans hleaves, hpos⟩
    · rintro k op u t hop ⟨hu, rfl⟩ ht
      exact State.Turn.endTurn ⟨t, hu.trans (again_leaves ht), .inl rfl⟩
    · rintro k op u t hop ⟨hu, rfl⟩ ht
      exact (hu.turn (ended_turn (List.mem_of_getElem? hop) ht)).endTurn
    · rintro k u ⟨hu, -⟩
      exact State.Turn.endTurn ⟨u, hu, .inl rfl⟩
  · exact .inl h

end

end Sys2Proof.Machine
end

section
/-! The invariant of the machine: the sequencer's turn and every act of the host side keep it (10_state R21-R38,
60_exceptions R171, 42_auth R132); and what no command changes. -/

namespace Sys2Proof.Machine

/-! ### The sequencer's turn -/

/-- Everything the sequencer's turn can be. -/
theorem sequencerTurn_cases (s : State) :
    (s.hstat.busy = false ∧ sequencerTurn s = .next s.endTurn) ∨
    (s.hstat.busy = true ∧ s.lines.length ≤ s.pos ∧ sequencerTurn s = .fault .lostPosition) ∨
    (s.hstat.busy = true ∧ ∃ t, sequencerTurn s = .next t ∧ s.Turn s.fetch t) := by
  rw [sequencerTurn_eq]
  cases hb : s.hstat.busy
  · exact .inl ⟨rfl, rfl⟩
  · rw [s.lines_eq]
    rcases runProgram_turn s.fetch_hostCommand s with ⟨hpos, h⟩ | ⟨t, h, ht⟩
    · exact .inr (.inl ⟨rfl, hpos, h⟩)
    · exact .inr (.inr ⟨rfl, t, h, ht⟩)

theorem endTurn_eq_setHost (s : State) : ∃ l, s.endTurn = s.setHost l := by
  rcases endTurn_cases s with h | ⟨rest, -, h⟩
  · exact ⟨s.host, h⟩
  · exact ⟨rest, h⟩

section
variable {s t u : State}

/-- While BUSY the invariant says what a running command needs. -/
theorem State.Inv.sound (h : s.Inv) (hb : s.hstat.busy = true) : s.Sound s.fetch where
  img := h.img
  widx := h.widx
  locked := h.locked
  moded := h.moded
  position := s.lines_eq ▸ h.position hb
  admitted := h.admitted hb
  granted := h.granted hb

/-- Of an idle state the invariant says nothing about the sequencer. -/
theorem State.Inv.of_idle (hb : s.hstat.busy = false) (img : s.img.wf) (cur : s.cur = s.hcmd)
    (errcode : s.hstat.err = false ↔ s.hstat.errcode = .none) (completed : s.hstat.err = true → s.hstat.done = true)
    (mode : s.hstat.ModeAgrees) (widx : s.widx.toNat ≤ wordCount) : s.Inv where
  img := img
  cur := cur
  position h := absurd h (by simp [hb])
  running h := absurd h (by simp [hb])
  errcode := errcode
  completed := completed
  locked := mode.1
  moded := mode.2
  widx := widx
  admitted h := absurd h (by simp [hb])
  granted h := absurd h (by simp [hb])

theorem State.Leaves.inv (h : s.Inv) (hb : s.hstat.busy = true) (hu : s.Leaves s.fetch u) : u.Inv := by
  have hsound := hu.sound (h.sound hb)
  have hrun := h.running hb
  obtain ⟨hhcmd, -, -, -, hcur, -, -⟩ := hu.hostSide
  have hfetch : u.fetch = s.fetch := hu.hostSide.fetch
  exact {
    img := hsound.img
    cur := by rw [hcur, hhcmd, h.cur]
    position := fun _ => by
      rw [u.lines_eq, hfetch]
      exact hsound.position
    running := fun _ => by
      rw [hu.done, hu.err]
      exact hrun
    errcode := by
      rw [hu.err, hu.errcode]
      exact h.errcode
    completed := by
      rw [hu.err, hu.done]
      exact h.completed
    locked := hsound.locked
    moded := hsound.moded
    widx := hsound.widx
    admitted := fun _ => by
      rw [hfetch]
      exact hsound.admitted
    granted := fun _ => by
      rw [hfetch]
      exact hsound.granted }

/-- Ending with success keeps the invariant (60_exceptions R173). -/
theorem State.Inv.finish (h : s.Inv) : s.finish.Inv :=
  .of_idle rfl h.img h.cur h.errcode (fun _ => rfl) ⟨h.locked, h.moded⟩ h.widx

/-- Taking a real error keeps the invariant (60_exceptions R172). -/
theorem State.Inv.raise (h : s.Inv) {code : ErrCode} (hc : code ≠ .none) : (s.raise code).Inv :=
  .of_idle rfl h.img h.cur (by simp [State.raise, Hstat.failed, hc]) (fun _ => rfl) ⟨h.locked, h.moded⟩ h.widx

theorem State.Turn.inv (h : s.Inv) (hb : s.hstat.busy = true) (ht : s.Turn s.fetch t) : t.Inv := by
  obtain ⟨u, hu, rfl | rfl | ⟨code, hcode, rfl⟩⟩ := ht
  · exact hu.inv h hb
  · exact (hu.inv h hb).finish
  · exact (hu.inv h hb).raise hcode

/-! ### The acts of the host side -/

/-- The invariant says nothing of the environment, nor of the registers only the host writes, HCFG excepted. -/
theorem State.Inv.env (h : s.Inv) (hpoll : Word32) (himga : BitVec 7) (busReady : Bool) (draws : Nat)
    (host : List HostAct) (reads : List Word32) :
    ({ s with
      hpoll := hpoll, himga := himga, busReady := busReady, draws := draws, host := host, reads := reads }).Inv :=
  { h with }

theorem State.Inv.setHost (h : s.Inv) (l : List HostAct) : (s.setHost l).Inv := h.env _ _ _ _ l _

/-- The sticky bits OVR and SERR are free (10_state R22). -/
theorem State.Inv.sticky (h : s.Inv) (ovr serr : Bool) :
    (s.setHstat { s.hstat with ovr := ovr, serr := serr }).Inv := { h with }

theorem State.Inv.setHcfg (h : s.Inv) (hb : s.hstat.busy = false) (c : Hcfg) : (s.setHcfg c).Inv :=
  .of_idle hb h.img h.cur h.errcode h.completed ⟨h.locked, h.moded⟩ h.widx

theorem State.Inv.memWrite (h : s.Inv) (a : Nat) (bytes : List Byte) : (s.memWrite a bytes).Inv :=
  { h with img := State.memWrite_wf h.img a bytes }

/-- An accepted command stands at its first line (10_state R21). -/
theorem State.Inv.accept (h : s.Inv) (w : Word32) : (s.accept w).Inv where
  img := h.img
  cur := rfl
  position _ := by
    rw [State.lines_eq]
    exact linesFor_length_pos (State.fetch_hostCommand _) _
  running _ := ⟨rfl, rfl⟩
  errcode := ⟨fun _ => rfl, fun _ => rfl⟩
  completed := nofun
  locked := h.locked
  moded := h.moded
  widx := h.widx
  admitted _ hp := absurd hp (Nat.lt_irrefl 0)
  granted _ _ hp := absurd hp (Nat.not_lt_zero _)

theorem State.Inv.hostWrite (h : s.Inv) (off : Nat) (w : Word32) : (s.hostWrite off w).Inv := by
  rcases hostWrite_cases s off w with ⟨-, -, he⟩ | ⟨-, -, he⟩ | ⟨-, he⟩ | ⟨hb, -, he⟩ | ⟨-, -, he⟩ | ⟨-, -, he⟩ |
    ⟨-, -, he⟩ | ⟨-, -, he⟩ <;> rw [he]
  · exact h.sticky _ _
  · exact h.accept w
  · exact h.sticky _ _
  · exact h.setHcfg hb _
  · exact h.env _ _ _ _ _ _
  · exact h.env _ _ _ _ _ _
  · exact (h.memWrite _ _).env _ _ _ _ _ _
  · exact h

theorem State.Inv.hostRead (h : s.Inv) (off : Nat) : (s.hostRead off).Inv := by
  rw [hostRead_eq]
  exact h.env _ _ _ _ _ _

/-- Reset puts the machine into the invariant, whatever it was doing (70_reset_and_hazards R191). -/
theorem State.hwReset_inv (s : State) : s.hwReset.Inv :=
  .of_idle rfl State.reset_img_wf rfl (iff_of_true rfl rfl) nofun ⟨fun _ => rfl, nofun⟩ (Nat.zero_le _)

theorem State.Inv.sequencerTurn (h : s.Inv) : ∃ t, sequencerTurn s = .next t ∧ t.Inv := by
  rcases sequencerTurn_cases s with ⟨-, he⟩ | ⟨hb, hpos, -⟩ | ⟨hb, t, he, ht⟩
  · obtain ⟨l, hl⟩ := endTurn_eq_setHost s
    exact ⟨_, he, hl ▸ h.setHost l⟩
  · exact absurd (h.position hb) (not_lt.mpr hpos)
  · exact ⟨t, he, ht.inv h hb⟩

end

/-- Settles O55: by what a turn leaves while BUSY, and act by act otherwise. -/
theorem stepKeepsInv : Obligations.StepKeepsInv := by
  intro s h
  rcases step_cases s with ⟨-, he⟩ | ⟨off, rest, -, he⟩ | ⟨off, w, rest, -, he⟩ | ⟨addr, rest, -, -, he⟩ |
    ⟨addr, w, rest, -, -, he⟩ | ⟨act, rest, -, he⟩ | ⟨w, rest, -, he⟩ | ⟨b, rest, -, he⟩ | ⟨rest, -, he⟩ <;> rw [he]
  · exact h.sequencerTurn
  · exact ⟨_, rfl, (h.setHost rest).hostRead off⟩
  · exact ⟨_, rfl, (h.setHost rest).hostWrite off w⟩
  · exact ⟨_, rfl, (h.setHost rest).hostRead _⟩
  · exact ⟨_, rfl, (h.setHost rest).hostWrite _ w⟩
  · exact ⟨_, rfl, h.setHost rest⟩
  · exact ((h.setHost _).sticky _ _).sequencerTurn
  · exact ⟨_, rfl, h.env _ _ b _ rest _⟩
  · exact ⟨_, rfl, State.hwReset_inv _⟩

end Sys2Proof.Machine
end

section
/-! What a step can be, as far as requests and HSTAT are concerned; and the statements over every step: idleness
(10_state R23), SERR (R28), AUTHST and WARN (R26, R31), and what no command changes (R34). -/

namespace Sys2Proof.Machine

/-! ### A turn, field by field -/

section
variable {f : Except DecodeError Instr} {s t : State}

theorem State.Turn.hostSide (h : s.Turn f t) : s.sameHostSide t := by
  obtain ⟨u, hu, rfl | rfl | ⟨code, -, rfl⟩⟩ := h <;> exact hu.hostSide

theorem State.Turn.authst (h : s.Turn f t) (hf : f ≠ .ok .rewrite) : t.hstat.authst = s.hstat.authst := by
  obtain ⟨u, hu, rfl | rfl | ⟨code, -, rfl⟩⟩ := h <;> exact hu.authst hf

theorem State.Turn.warn (h : s.Turn f t) (hf : f ≠ .ok .chipid) : t.hstat.warn = s.hstat.warn := by
  obtain ⟨u, hu, rfl | rfl | ⟨code, -, rfl⟩⟩ := h <;> exact hu.warn hf

/-- A turn leaves ERR and SERR alone or sets both (10_state R28). -/
theorem State.Turn.serr (h : s.Turn f t) :
    (t.hstat.err = s.hstat.err ∧ t.hstat.serr = s.hstat.serr) ∨ (t.hstat.err = true ∧ t.hstat.serr = true) := by
  obtain ⟨u, hu, rfl | rfl | ⟨code, -, rfl⟩⟩ := h
  · exact .inl ⟨hu.err, hu.serr⟩
  · exact .inl ⟨hu.err, hu.serr⟩
  · exact .inr ⟨rfl, rfl⟩

/-! ### What a step can be -/

/-- The sequencer's turn: nothing while idle, a turn of the current command while BUSY. -/
theorem sequencerTurn_next (h : sequencerTurn s = .next t) :
    (s.hstat.busy = false ∧ ∃ l, t = s.setHost l) ∨ (s.hstat.busy = true ∧ s.Turn s.fetch t) := by
  rcases sequencerTurn_cases s with ⟨hb, he⟩ | ⟨-, -, he⟩ | ⟨hb, u, he, hu⟩ <;> rw [he] at h <;> cases h
  · exact .inl ⟨hb, endTurn_eq_setHost s⟩
  · exact .inr ⟨hb, hu⟩

/-- The host side's next act writes w to an offset of the register block. -/
def State.WritesNext (s : State) (off : Nat) (w : Word32) (rest : List HostAct) : Prop :=
  s.host = .write off w :: rest ∨ ∃ addr, s.host = .writeAt addr w :: rest ∧ addr = Config.ozecBase + off

/-- The sequencer's turn begins in r: in s, or after the write of HSTAT that comes with it. -/
def State.TurnBegins (s r : State) : Prop :=
  r = s ∨ ∃ w rest, s.host = .statWith w :: rest ∧
    r = (s.setHost (.pass :: rest)).setHstat (s.hstat.cleared w)

/-- A step is a turn of the sequencer, a write of the host, a reset, or leaves HSTAT and the log of requests. -/
theorem step_next_cases (h : step s = .next t) :
    (∃ r, s.TurnBegins r ∧ sequencerTurn r = .next t) ∨
    (∃ off w rest, s.WritesNext off w rest ∧ t = (s.setHost rest).hostWrite off w) ∨
    (∃ rest, s.host = .reset :: rest ∧ t = (s.setHost rest).hwReset) ∨
    (t.hstat = s.hstat ∧ t.trace = s.trace) := by
  have hread : ∀ rest off, ((s.setHost rest).hostRead off).hstat = s.hstat ∧
      ((s.setHost rest).hostRead off).trace = s.trace := fun rest off => by
    rw [hostRead_eq]
    exact ⟨rfl, rfl⟩
  rcases step_cases s with ⟨-, he⟩ | ⟨off, rest, -, he⟩ | ⟨off, w, rest, hh, he⟩ | ⟨addr, rest, -, -, he⟩ |
    ⟨addr, w, rest, hh, hle, he⟩ | ⟨act, rest, -, he⟩ | ⟨w, rest, hh, he⟩ | ⟨b, rest, -, he⟩ | ⟨rest, hh, he⟩ <;>
    rw [he] at h
  · exact .inl ⟨s, .inl rfl, h⟩
  · cases h
    exact .inr (.inr (.inr (hread rest off)))
  · cases h
    exact .inr (.inl ⟨off, w, rest, .inl hh, rfl⟩)
  · cases h
    exact .inr (.inr (.inr (hread rest _)))
  · cases h
    exact .inr (.inl ⟨_, w, rest, .inr ⟨addr, hh, by omega⟩, rfl⟩)
  · cases h
    exact .inr (.inr (.inr ⟨rfl, rfl⟩))
  · exact .inl ⟨_, .inr ⟨w, rest, hh, rfl⟩, h⟩
  · cases h
    exact .inr (.inr (.inr ⟨rfl, rfl⟩))
  · cases h
    exact .inr (.inr (.inl ⟨rest, hh, rfl⟩))

/-- The write of HSTAT that comes with a turn clears OVR and SERR at most. -/
theorem State.TurnBegins.hstat {r : State} (h : s.TurnBegins r) :
    r.hstat.busy = s.hstat.busy ∧ r.hstat.err = s.hstat.err ∧ r.hstat.authst = s.hstat.authst ∧
      r.hstat.warn = s.hstat.warn ∧ r.trace = s.trace ∧ r.fetch = s.fetch := by
  obtain rfl | ⟨w, rest, -, rfl⟩ := h <;> exact ⟨rfl, rfl, rfl, rfl, rfl, rfl⟩

end

/-! ### A host write -/

/-- No host write issues a request. -/
@[simp] theorem hostWrite_trace (s : State) (off : Nat) (w : Word32) : (s.hostWrite off w).trace = s.trace := by
  rcases hostWrite_cases s off w with ⟨-, -, h⟩ | ⟨-, -, h⟩ | ⟨-, h⟩ | ⟨-, -, h⟩ | ⟨-, -, h⟩ | ⟨-, -, h⟩ |
    ⟨-, -, h⟩ | ⟨-, -, h⟩ <;> rw [h] <;> rfl

/-- HSTAT after a host write: as it was, overrun, of an accepted command, or with its sticky bits cleared. -/
theorem hostWrite_hstat_cases (s : State) (off : Nat) (w : Word32) :
    (s.hostWrite off w).hstat = s.hstat ∨ (s.hostWrite off w).hstat = s.hstat.overrun ∨
    (off = offHcmd ∧ s.hostWrite off w = s.accept w) ∨
    (off = offHstat ∧ (s.hostWrite off w).hstat = s.hstat.cleared w) := by
  rcases hostWrite_cases s off w with ⟨-, -, h⟩ | ⟨-, ho, h⟩ | ⟨ho, h⟩ | ⟨-, -, h⟩ | ⟨-, -, h⟩ | ⟨-, -, h⟩ |
    ⟨-, -, h⟩ | ⟨-, -, h⟩
  · exact .inr (.inl (congrArg State.hstat h))
  · exact .inr (.inr (.inl ⟨ho, h⟩))
  · exact .inr (.inr (.inr ⟨ho, congrArg State.hstat h⟩))
  all_goals
    rw [h]
    exact .inl rfl

/-! ### The statements -/

/-- Settles O10: while idle only the host acts, and of its acts only a write of HCMD sets BUSY. -/
theorem idleIssuesNoRequest : Obligations.IdleIssuesNoRequest := by
  intro s t hb h
  rcases step_next_cases h with ⟨r, hr, h⟩ | ⟨off, w, rest, hw, rfl⟩ | ⟨rest, -, rfl⟩ | ⟨hhstat, htrace⟩
  · obtain ⟨hrb, -, -, -, htrace, -⟩ := hr.hstat
    rcases sequencerTurn_next h with ⟨-, l, rfl⟩ | ⟨hrb', -⟩
    · exact ⟨htrace, fun ht => by simp [hrb, hb] at ht⟩
    · simp [hrb, hb] at hrb'
  · refine ⟨by simp, fun ht => ?_⟩
    rcases hostWrite_hstat_cases (s.setHost rest) off w with h | h | ⟨rfl, h⟩ | ⟨-, h⟩
    · simp [h, hb] at ht
    · simp [h, hb, Hstat.overrun] at ht
    · exact ⟨w, rest, by rw [h]; rfl, by simpa [State.WritesNext] using hw⟩
    · simp [h, hb, Hstat.cleared] at ht
  · exact ⟨rfl, fun ht => by cases ht⟩
  · exact ⟨htrace, fun ht => by simp [hhstat, hb] at ht⟩

/-- Settles O12: a turn sets ERR and SERR together, after the write of HSTAT that may come with it. -/
theorem serrRecordsErrors : Obligations.SerrRecordsErrors := by
  intro s t h
  rcases step_next_cases h with ⟨r, hr, h⟩ | ⟨off, w, rest, hw, rfl⟩ | ⟨rest, hh, rfl⟩ | ⟨hhstat, -⟩
  · obtain ⟨-, herr, -, -, -, -⟩ := hr.hstat
    have hturn : (t.hstat.err = r.hstat.err ∧ t.hstat.serr = r.hstat.serr) ∨
        (t.hstat.err = true ∧ t.hstat.serr = true) := by
      rcases sequencerTurn_next h with ⟨-, l, rfl⟩ | ⟨-, hturn⟩
      · exact .inl ⟨rfl, rfl⟩
      · exact hturn.serr
    rcases hturn with ⟨hte, hts⟩ | ⟨hte, hts⟩
    · refine ⟨fun h0 h1 => by simp [hte, herr, h0] at h1, fun h1 h0 => ?_⟩
      obtain rfl | ⟨w, rest, hh, rfl⟩ := hr
      · simp [hts, h1] at h0
      · refine ⟨rest, .inr ⟨w, ?_, .inr (.inl hh)⟩⟩
        simpa [hts, Hstat.cleared, h1] using h0
    · exact ⟨fun _ _ => hts, fun _ h0 => by simp [hts] at h0⟩
  · rcases hostWrite_hstat_cases (s.setHost rest) off w with h | h | ⟨-, h⟩ | ⟨rfl, h⟩ <;> rw [h]
    · exact ⟨fun h0 h1 => by simp [h0] at h1, fun h1 h0 => by simp [h1] at h0⟩
    · exact ⟨fun h0 h1 => by simp [h0, Hstat.overrun] at h1, fun h1 h0 => by simp [h1, Hstat.overrun] at h0⟩
    · exact ⟨nofun, fun h1 h0 => Bool.noConfusion (h1.symm.trans h0)⟩
    · refine ⟨fun h0 h1 => by simp [h0, Hstat.cleared] at h1, fun h1 h0 => ⟨rest, .inr ⟨w, ?_, ?_⟩⟩⟩
      · simpa [Hstat.cleared, h1] using h0
      · exact hw.imp_right .inr
  · exact ⟨nofun, fun _ _ => ⟨rest, .inl hh⟩⟩
  · rw [hhstat]
    exact ⟨fun h0 h1 => by simp [h0] at h1, fun h1 h0 => by simp [h1] at h0⟩

/-- Settles O60: of the commands only REWRITE writes AUTHST and only CHIPID writes WARN; the host clears them. -/
theorem onlyRewriteSetsAuthst : Obligations.OnlyRewriteSetsAuthst := by
  intro s t h
  rcases step_next_cases h with ⟨r, hr, h⟩ | ⟨off, w, rest, -, rfl⟩ | ⟨rest, -, rfl⟩ | ⟨hhstat, -⟩
  · obtain ⟨-, -, hauth, hwarn, -, hfetch⟩ := hr.hstat
    rw [← hauth, ← hwarn, ← hfetch]
    rcases sequencerTurn_next h with ⟨-, l, rfl⟩ | ⟨-, hturn⟩
    · exact ⟨fun h => absurd rfl h, .inl⟩
    · exact ⟨fun ht => .inr (by_contra fun hf => ht (hturn.authst hf)),
        fun ht => or_iff_not_imp_right.mpr fun hf => (hturn.warn hf).symm.trans ht⟩
  · rcases hostWrite_hstat_cases (s.setHost rest) off w with h | h | ⟨-, h⟩ | ⟨-, h⟩ <;> rw [h]
    · exact ⟨fun h => absurd rfl h, .inl⟩
    · exact ⟨fun h => absurd rfl h, .inl⟩
    · exact ⟨fun _ => .inl rfl, fun h => by cases h⟩
    · exact ⟨fun h => absurd rfl h, .inl⟩
  · exact ⟨fun _ => .inl rfl, fun h => by cases h⟩
  · rw [hhstat]
    exact ⟨fun h => absurd rfl h, .inl⟩

/-- A control code's exec is one write of 0x5F (log entry 13). -/
theorem exec_control {i : Instr} (h : isControl i = true) (s : State) :
    ∃ code, exec i s = .next (modeWrite code s) := by
  cases i with
  | eeLock | eeAuth | eeWrite | eeErase | eeRead => exact ⟨_, rfl⟩
  | _ => cases h

theorem modeWrite_hostSide (code : Byte) (s : State) : s.sameHostSide (modeWrite code s) := by
  unfold modeWrite
  obtain ⟨l, hl⟩ := endTurn_eq_setHost (s.busWrite regEeControl code).bump
  rw [hl]
  exact ⟨rfl, rfl, rfl, rfl, rfl, rfl, rfl⟩

/-- Settles O56: a command is a turn of its lines, a control code one write of 0x5F. -/
theorem commandsKeepHostSide : Obligations.CommandsKeepHostSide := by
  intro i s t h
  cases hc : isControl i
  · have hf : HostCommand (.ok i) := fun j hj => Except.ok.inj hj ▸ hc
    rw [exec_eq_runProgram hc] at h
    rcases runProgram_turn hf s with ⟨-, he⟩ | ⟨u, he, hu⟩
    · cases he.symm.trans h
    · cases he.symm.trans h
      exact hu.hostSide
  · obtain ⟨code, he⟩ := exec_control hc s
    cases he.symm.trans h
    exact modeWrite_hostSide code s

/-- Settles O5: at the host side's rest or pass the step is the sequencer's turn, which runs what CUR decodes to. -/
theorem stepRunsDecodedCommand : Obligations.StepRunsDecodedCommand := by
  intro s i hb hi hh
  have hturn : step s = sequencerTurn s := by
    rcases hh with h | ⟨rest, h⟩ <;> simp [step, hostTurn, h]
  have hfetch : s.fetch = .ok i := hi
  rw [hturn, sequencerTurn, if_pos hb, hfetch]

end Sys2Proof.Machine
end

section
/-! The host registers: what a host write does to each (one equation per register), where HSTAT and HCFG hold their
fields, and the statements about them (10_state R18-R37). -/

namespace Sys2Proof.Machine

/-! ### One equation per register -/

section
variable {s : State} {w : Word32}

theorem step_write {off : Nat} {rest : List HostAct} (h : s.host = .write off w :: rest) :
    step s = .next ((s.setHost rest).hostWrite off w) := by
  unfold step
  rw [h]
  rfl

theorem step_read {off : Nat} {rest : List HostAct} (h : s.host = .read off :: rest) :
    step s = .next ((s.setHost rest).hostRead off) := by
  unfold step
  rw [h]
  rfl

theorem hostWrite_hcmd (hb : s.hstat.busy = false) : s.hostWrite offHcmd w = s.accept w := by
  simp [State.hostWrite, hb]

theorem hostWrite_hstat : s.hostWrite offHstat w = s.setHstat (s.hstat.cleared w) := by
  simp [State.hostWrite, guardedOffset]

theorem hostWrite_hcfg (hb : s.hstat.busy = false) : s.hostWrite offHcfg w = s.setHcfg (Hcfg.ofWord w) := by
  simp [State.hostWrite, hb]

theorem hostWrite_hpoll (hb : s.hstat.busy = false) : s.hostWrite offHpoll w = s.setHpoll w := by
  simp [State.hostWrite, hb]

theorem hostWrite_himga (hb : s.hstat.busy = false) :
    s.hostWrite offHimga w = s.setHimga (w.extractLsb' 0 7) := by
  simp [State.hostWrite, hb]

theorem hostWrite_himgd (hb : s.hstat.busy = false) : s.hostWrite offHimgd w =
    (s.memWrite s.himga.toNat [w.extractLsb' 0 8]).setHimga (s.himga + 1) := by
  simp [State.hostWrite, hb]

/-- A write to an offset that no writable register has does nothing (10_state R19). -/
theorem hostWrite_inert {off : Nat} (hg : guardedOffset off = false) (hs : off ≠ offHstat) :
    s.hostWrite off w = s := by
  rw [State.hostWrite, hg, Bool.false_and, if_neg (by decide), if_neg, if_neg hs, if_neg, if_neg, if_neg, if_neg]
  all_goals
    rintro rfl
    cases hg

/-- The offsets of the twelve registers (10_state R18). -/
def registerOffsets : List Nat :=
  [offHcmd, offHstat, offHres0, offHres1, offHcfg, offHpoll, offHimga, offHimgd, offHimgv0, offHimgv1, offHimgv2,
    offHimgv3]

/-- An offset of no register reads 0, and neither a read nor a write of it does anything (10_state R19). -/
theorem unmapped_inert (s : State) (w : Word32) {off : Nat} (h : off ∉ registerOffsets) :
    s.hostValue off = 0 ∧ s.hostWrite off w = s ∧ s.afterHostRead off = s := by
  simp only [registerOffsets, List.mem_cons, List.not_mem_nil, or_false, not_or] at h
  obtain ⟨hcmd, hstat, hres0, hres1, hcfg, hpoll, himga, himgd, hv0, hv1, hv2, hv3⟩ := h
  refine ⟨?_, hostWrite_inert ?_ hstat, if_neg himgd⟩
  · simp [State.hostValue, hcmd, hstat, hres0, hres1, hcfg, hpoll, himga, himgd, hv0, hv1, hv2, hv3]
  · simp [guardedOffset, hcmd, hcfg, hpoll, himga, himgd]

/-- A read of HIMGD at a valid byte returns it, and advances HIMGA except while BUSY (10_state R34, R37). -/
theorem hostRead_himgd {b : Byte} (h : s.img.read s.himga.toNat = some b) : s.hostRead offHimgd = { s with
    reads := s.reads ++ [b.setWidth 32], himga := if s.hstat.busy then s.himga else s.himga + 1 } := by
  have hvalue : s.hostValue offHimgd = b.setWidth 32 := by simp [State.hostValue, h]
  have hvalid : s.img.valid s.himga.toNat = true := (Memory.valid_iff _ _).mpr ⟨b, h⟩
  rw [State.hostRead, hvalue, State.afterHostRead, if_pos rfl, if_pos hvalid]
  cases s.hstat.busy <;> rfl

end

/-! ### HSTAT as a word -/

section
variable {m n i : Nat} {x : BitVec m} {y : BitVec n}

/-- A bit of the upper of two parts side by side. -/
theorem getLsbD_append_of_le (h : n ≤ i) : (x ++ y).getLsbD i = x.getLsbD (i - n) := by
  rw [BitVec.getLsbD_append, if_neg (not_lt.mpr h)]

/-- A bit of the lower of two parts side by side. -/
theorem getLsbD_append_of_lt (h : i < n) : (x ++ y).getLsbD i = y.getLsbD i := by
  rw [BitVec.getLsbD_append, if_pos h]

/-- The lowest part is a flag. -/
theorem getLsbD_append_ofBool (b : Bool) : (x ++ BitVec.ofBool b).getLsbD 0 = b := by
  rw [getLsbD_append_of_lt Nat.one_pos, BitVec.getLsbD_ofBool]
  rfl

end

namespace Hstat
variable (h : Hstat)

/-- HSTAT's flags stand in its six lowest bits (10_state R22). -/
theorem word_flags :
    h.word.getLsbD 0 = h.busy ∧ h.word.getLsbD 1 = h.done ∧ h.word.getLsbD 2 = h.err ∧
    h.word.getLsbD 3 = h.warn ∧ h.word.getLsbD 4 = h.ovr ∧ h.word.getLsbD 5 = h.serr := by
  unfold Hstat.word
  refine ⟨getLsbD_append_ofBool _, ?_, ?_, ?_, ?_, ?_⟩
  · iterate 1 refine Eq.trans (getLsbD_append_of_le (by decide)) ?_
    exact getLsbD_append_ofBool _
  · iterate 2 refine Eq.trans (getLsbD_append_of_le (by decide)) ?_
    exact getLsbD_append_ofBool _
  · iterate 3 refine Eq.trans (getLsbD_append_of_le (by decide)) ?_
    exact getLsbD_append_ofBool _
  · iterate 4 refine Eq.trans (getLsbD_append_of_le (by decide)) ?_
    exact getLsbD_append_ofBool _
  · iterate 5 refine Eq.trans (getLsbD_append_of_le (by decide)) ?_
    exact getLsbD_append_ofBool _

/-- HSTAT's fields above its flags, each at its place (10_state R22, R29-R31, 60_exceptions R170): the parts below a
field are left out one by one, until it is the lowest. -/
theorem word_fields :
    h.word.extractLsb' 8 4 = h.errcode.toBits ∧ h.word.extractLsb' 12 3 = h.phase.toBits ∧
    h.word.extractLsb' 16 8 = h.lastmode ∧ h.word.extractLsb' 24 3 = h.authst.toBits := by
  unfold Hstat.word
  refine ⟨?_, ?_, ?_, ?_⟩
  · iterate 7 refine Eq.trans (BitVec.extractLsb'_append_eq_of_le (by decide)) ?_
    exact BitVec.extractLsb'_append_eq_right
  · iterate 8 refine Eq.trans (BitVec.extractLsb'_append_eq_of_le (by decide)) ?_
    exact BitVec.extractLsb'_append_eq_right
  · iterate 10 refine Eq.trans (BitVec.extractLsb'_append_eq_of_le (by decide)) ?_
    exact BitVec.extractLsb'_append_eq_right
  · iterate 11 refine Eq.trans (BitVec.extractLsb'_append_eq_of_le (by decide)) ?_
    exact BitVec.extractLsb'_append_eq_right

/-- HSTAT's reserved bits read 0 (10_state R22). -/
theorem word_reserved :
    h.word.extractLsb' 6 2 = 0 ∧ h.word.getLsbD 15 = false ∧ h.word.extractLsb' 27 5 = 0 := by
  unfold Hstat.word
  refine ⟨?_, ?_, ?_⟩
  · iterate 6 refine Eq.trans (BitVec.extractLsb'_append_eq_of_le (by decide)) ?_
    exact BitVec.extractLsb'_append_eq_right
  · iterate 9 refine Eq.trans (getLsbD_append_of_le (by decide)) ?_
    exact getLsbD_append_of_lt (by decide)
  · iterate 12 refine Eq.trans (BitVec.extractLsb'_append_eq_of_le (by decide)) ?_
    rfl

/-- A write of HSTAT clears OVR on bit 4 and SERR on bit 5 (10_state R22). -/
theorem cleared_eq (w : Word32) : h.cleared w = { h with
    ovr := if w.getLsbD 4 then false else h.ovr, serr := if w.getLsbD 5 then false else h.serr } := by
  unfold Hstat.cleared
  cases w.getLsbD 4 <;> cases w.getLsbD 5 <;> simp

end Hstat

/-! ### HCFG and HIMGA as words -/

/-- HCFG written and read back keeps its fields and reads 0 elsewhere (10_state R33). -/
theorem Hcfg.word_ofWord (w : Word32) : (Hcfg.ofWord w).word = w &&& 0x0000077F := by
  have hsubst : (Hcfg.ofWord w).subst.toBit = BitVec.ofBool (w.getLsbD 8) := by
    unfold Hcfg.ofWord
    cases w.getLsbD 8 <;> rfl
  have hnib : (Hcfg.ofWord w).nibmode.toBit = BitVec.ofBool (w.getLsbD 10) := by
    unfold Hcfg.ofWord
    cases w.getLsbD 10 <;> rfl
  have happend {m n : Nat} (x : BitVec m) (y : BitVec n) (j : Nat) :
      (x ++ y).getLsbD j = if j < n then y.getLsbD j else x.getLsbD (j - n) := BitVec.getLsbD_append
  have hmask : ∀ i < 32, (0x0000077F : Word32).getLsbD i =
      (decide (i < 7) || decide (i = 8) || decide (i = 9) || decide (i = 10)) := by decide
  refine BitVec.eq_of_getLsbD_eq fun i hi => ?_
  rw [BitVec.getLsbD_and, hmask i hi]
  unfold Hcfg.word
  rw [hsubst, hnib]
  iterate 5 rw [happend]
  simp only [Nat.sub_sub, Nat.reduceAdd, BitVec.getLsbD_ofBool, BitVec.getLsbD_zero, Hcfg.ofWord,
    BitVec.getLsbD_extractLsb']
  grind

/-- HIMGA written and read back keeps its seven bits (10_state R35). -/
theorem himga_ofWord (w : Word32) : (w.extractLsb' 0 7).setWidth 32 = w &&& 0x0000007F := by
  have hmask : ∀ i < 32, (0x0000007F : Word32).getLsbD i = decide (i < 7) := by decide
  refine BitVec.eq_of_getLsbD_eq fun i hi => ?_
  rw [BitVec.getLsbD_and, hmask i hi]
  simp [hi, Bool.and_comm]

/-! ### The statements -/

/-- Settles O13: register by register, HCFG and HIMGA by their masks, HSTAT field by field. -/
theorem configWritesReadBack : Obligations.ConfigWritesReadBack := by
  refine ⟨fun s w hb => ⟨?_, ?_, ?_⟩, fun s => ⟨rfl, rfl, rfl⟩, fun s => ?_, rfl, rfl, rfl⟩
  · rw [hostWrite_hcfg hb]
    exact ⟨Hcfg.word_ofWord w, rfl⟩
  · rw [hostWrite_hpoll hb]
    exact ⟨rfl, rfl⟩
  · rw [hostWrite_himga hb]
    exact ⟨himga_ofWord w, rfl⟩
  · obtain ⟨hbusy, hdone, herr, hwarn, hovr, hserr⟩ := s.hstat.word_flags
    obtain ⟨hcode, hphase, hmode, hauth⟩ := s.hstat.word_fields
    exact ⟨hbusy, hdone, herr, hwarn, hovr, hserr, hcode, hphase, hmode, hauth, s.hstat.word_reserved⟩

/-- Settles O16: the write by the byte it stores in IMG, the read by the byte it finds there. -/
theorem himgdAccess : Obligations.HimgdAccess := by
  refine ⟨fun s w hb => ?_, fun s b rest hh hread => ?_⟩
  · have hbyte : w.extractLsb' 0 8 = w.setWidth 8 := (BitVec.setWidth_eq_extractLsb' (by decide)).symm
    have hbound : s.himga.toNat < imageSize := s.himga.isLt
    rw [hostWrite_himgd hb, hbyte]
    have hstored : ∀ j, (s.memWrite s.himga.toNat [w.setWidth 8]).img.read j =
        if j = s.himga.toNat then some (w.setWidth 8) else s.img.read j :=
      fun j => Memory.read_write s.img _ j hbound
    exact ⟨hstored, BitVec.toNat_add _ _, (Memory.valid_iff _ _).mpr ⟨_, (hstored _).trans (if_pos rfl)⟩, rfl⟩
  · rw [step_read hh, hostRead_himgd (s := s.setHost rest) hread]
    rfl

/-- Settles O8: the equation of a write of HCMD while idle. -/
theorem hcmdWriteAccepts : Obligations.HcmdWriteAccepts := by
  intro s w rest hb hh
  rw [step_write hh, hostWrite_hcmd (s := s.setHost rest) hb]
  rfl

/-- Settles O11: the equation of a write of HSTAT. -/
theorem hstatWriteClears : Obligations.HstatWriteClears := by
  intro s w rest hh
  rw [step_write hh, hostWrite_hstat, Hstat.cleared_eq]
  rfl

/-- Settles O15: the twelve offsets are multiples of 4 below 0x30, and a read-only register is no writable one. -/
theorem unmappedOffsetsInert : Obligations.UnmappedOffsetsInert := by
  refine fun s off w => ⟨fun hoff => ?_, fun hoff => ?_⟩
  · have hmapped : ∀ r ∈ registerOffsets, ¬ (r % 4 ≠ 0 ∨ 0x30 ≤ r) := by decide
    exact unmapped_inert s w fun hmem => hmapped off hmem hoff
  · have hreadonly : ∀ r ∈ [0x08, 0x0C, 0x20, 0x24, 0x28, 0x2C], guardedOffset r = false ∧ r ≠ offHstat := by decide
    obtain ⟨hg, hs⟩ := hreadonly off hoff
    exact hostWrite_inert hg hs

/-- Settles O17: each HIMGVk is a word made of its bits. -/
theorem himgvShowsValidBits : Obligations.HimgvShowsValidBits := by
  intro s k j hk hj
  have hvalue : s.hostValue (0x20 + 4 * k) = s.validWord k := by
    interval_cases k <;> rfl
  rw [hvalue, State.validWord, BitVec.getLsbD_ofFnLE, dif_pos hj]

end Sys2Proof.Machine
end

section
/-! Which line issues each request of a step: the line's request as a function of it, and, by induction over a turn,
for every new entry of the log the state and the line it was issued at (20_memory R70, 40_bus R103, R104). -/

namespace Sys2Proof.Machine

/-! ### One line -/

/-- The request a line issues when it is performed in s, none for a computation and `finish`. -/
def MicroOp.request? (op : MicroOp) (s : State) : Option Request :=
  match op with
  | .compute _ | .finish => none
  | .poll => some (.busR s.hcfg.devaddr regEeControl)
  | .busR reg _ => some (.busR s.hcfg.devaddr reg)
  | .busW reg v => some (.busW s.hcfg.devaddr reg (v s))
  | .fileSize => some .fileSize
  | .fileRead off n => some (.fileRead off n)
  | .fileWriteAll bytes => some (.fileWriteAll (bytes s))

/-- The state a line leads to, whether the command goes on or not. -/
def MicroResult.state : MicroResult → State
  | .advance s | .again s | .ended s => s

@[simp] theorem busRead_trace (s : State) (reg : Byte) :
    (s.busRead reg).trace = s.trace ++ [.busR s.hcfg.devaddr reg] := by
  rw [busRead_eq]

@[simp] theorem fileRequest_trace (s : State) (r : Request) : (s.dropFile.request r).trace = s.trace ++ [r] := by
  rcases dropFile_cases s with ⟨_, _, -, -, h⟩ | ⟨-, -, h⟩ <;> rw [h] <;> rfl

theorem endTurn_trace (s : State) : s.endTurn.trace = s.trace := by
  obtain ⟨l, hl⟩ := endTurn_eq_setHost s
  rw [hl, State.setHost_trace]

/-- A file request is logged, whatever its answer. -/
theorem performFile_trace (r : Request) (s : State) {use : FileAnswer → State → State}
    (huse : ∀ a u, (use a u).trace = u.trace) : (performFile r use s).state.trace = s.trace ++ [r] := by
  unfold performFile
  split
  · exact fileRequest_trace s r
  · exact (huse _ _).trans (fileRequest_trace s r)

/-- A line logs its request and nothing else, if its own computation logs nothing. -/
theorem perform_trace {op : MicroOp} (hop : ∀ u v, op.Computes u v → v.trace = u.trace) (s : State) :
    (op.perform s).state.trace = s.trace ++ (op.request? s).toList := by
  cases op with
  | compute f =>
    cases h : f s with
    | ok v => simpa [MicroOp.perform, h, MicroResult.state, MicroOp.request?] using hop s v h
    | error code => simp [MicroOp.perform, h, MicroResult.state, MicroOp.request?, State.raise]
  | poll =>
    rcases perform_poll_cases s with ⟨-, h⟩ | ⟨-, t, rfl, ⟨-, h⟩ | ⟨-, -, -, h⟩ | ⟨-, -, h⟩⟩ <;> rw [h] <;>
      exact busRead_trace s regEeControl
  | busR reg store =>
    change (performRead reg store s).state.trace = s.trace ++ [.busR s.hcfg.devaddr reg]
    unfold performRead
    split
    · exact busRead_trace s reg
    · exact (hop (s.busRead reg) _ ⟨_, rfl⟩).trans (busRead_trace s reg)
  | busW reg v => rfl
  | fileSize =>
    rw [MicroOp.perform]
    exact performFile_trace _ s fun _ _ => rfl
  | fileRead off n =>
    rw [MicroOp.perform]
    exact performFile_trace _ s fun _ _ => rfl
  | fileWriteAll bytes =>
    rw [MicroOp.perform]
    exact performFile_trace _ s fun _ _ => rfl
  | finish => exact (List.append_nil _).symm

section
variable {f : Except DecodeError Instr} {s t u : State} {op : MicroOp} {q : Request}

/-- A line's own computation logs no request. -/
theorem computes_trace {subst : Substrate} (hop : op ∈ linesFor f subst) (h : op.Computes t u) :
    u.trace = t.trace := by
  rcases linesFor_cases hop with hplain | ⟨-, rfl⟩ | ⟨-, rfl | rfl⟩
  · rw [(hplain.computed t u h).frame]
  · replace h : checkChipId t = .ok u := h
    unfold checkChipId at h
    split_ifs at h <;> cases h <;> rfl
  · obtain ⟨x, rfl⟩ := h
    rfl
  · obtain rfl := Except.ok.inj h
    rfl

/-! ### A turn -/

/-- The program of f, run from s, issues q at one of its lines. -/
def State.Issues (f : Except DecodeError Instr) (s : State) (q : Request) : Prop :=
  ∃ u op, s.Leaves f u ∧ (linesFor f u.hcfg.subst)[u.pos]? = some op ∧ op.request? u = some q

/-- The log of t is that of s and requests that the program of f issues from s. -/
def State.Logs (f : Except DecodeError Instr) (s t : State) : Prop :=
  ∃ new, t.trace = s.trace ++ new ∧ ∀ q ∈ new, s.Issues f q

theorem State.Logs.refl (s : State) : s.Logs f s := ⟨[], by simp, by simp⟩

theorem State.Logs.of_trace_eq (h : s.Logs f t) (hu : u.trace = t.trace) : s.Logs f u := by
  obtain ⟨new, htrace, hnew⟩ := h
  exact ⟨new, hu.trans htrace, hnew⟩

theorem State.Logs.mem_drop (h : s.Logs f t) (hq : q ∈ t.trace.drop s.trace.length) : s.Issues f q := by
  obtain ⟨new, htrace, hnew⟩ := h
  rw [htrace, List.drop_left] at hq
  exact hnew q hq

/-- One more line of the program, performed at its position. -/
theorem State.Logs.perform (h : s.Logs f t) (ht : s.Leaves f t)
    (hop : (linesFor f t.hcfg.subst)[t.pos]? = some op) : s.Logs f (op.perform t).state := by
  obtain ⟨new, htrace, hnew⟩ := h
  have hstep := perform_trace (fun _ _ => computes_trace (List.mem_of_getElem? hop)) t
  refine ⟨new ++ (op.request? t).toList, by rw [hstep, htrace, List.append_assoc], fun q hq => ?_⟩
  rcases List.mem_append.mp hq with hq | hq
  · exact hnew q hq
  · exact ⟨t, op, ht, hop, by simpa using hq⟩

/-- What a turn logs is what the lines of its program issue. -/
theorem runProgram_logs (hf : HostCommand f) (h : runProgram (linesFor f s.hcfg.subst) s = .next t) :
    s.Logs f t := by
  rcases runProgram_cases (linesFor f s.hcfg.subst) s with ⟨-, he⟩ | ⟨-, he⟩ <;> rw [h] at he <;> cases he
  have hlast : ∀ k op u v, (linesFor f s.hcfg.subst)[k]? = some op →
      (s.Leaves f u ∧ u.pos = k) ∧ s.Logs f u → (op.perform u).state = v → s.Logs f v := by
    rintro k op u _ hop ⟨⟨hu, rfl⟩, hlogs⟩ rfl
    exact hlogs.perform hu (hu.hostSide.hcfg ▸ hop)
  refine runOps_induction (P := fun k u => (s.Leaves f u ∧ u.pos = k) ∧ s.Logs f u) (Q := s.Logs f) ?_ ?_ ?_ ?_
    s.pos s ⟨⟨.refl s, rfl⟩, .refl s⟩
  · intro k op u v hop hu hv
    have hlogs := hlast k op u v hop hu (by rw [hv]; rfl)
    obtain ⟨⟨hu, rfl⟩, -⟩ := hu
    obtain ⟨hleaves, hpos⟩ := advance_leaves hf (hu.hostSide.hcfg ▸ hop) hv
    exact ⟨⟨hu.trans hleaves, hpos⟩, hlogs.of_trace_eq rfl⟩
  · intro k op u v hop hu hv
    exact (hlast k op u v hop hu (by rw [hv]; rfl)).of_trace_eq (endTurn_trace v)
  · intro k op u v hop hu hv
    exact (hlast k op u v hop hu (by rw [hv]; rfl)).of_trace_eq (endTurn_trace v)
  · intro k u hu
    obtain ⟨-, hlogs⟩ := hu
    exact hlogs.of_trace_eq (endTurn_trace u)

/-! ### A step -/

theorem sequencerTurn_logs (h : sequencerTurn s = .next t) : s.Logs s.fetch t := by
  rw [sequencerTurn_eq] at h
  split at h
  · rw [s.lines_eq] at h
    exact runProgram_logs s.fetch_hostCommand h
  · cases h
    exact (State.Logs.refl s).of_trace_eq (endTurn_trace s)

theorem State.TurnBegins.inv {r : State} (hr : s.TurnBegins r) (h : s.Inv) : r.Inv := by
  obtain rfl | ⟨w, rest, -, rfl⟩ := hr
  · exact h
  · exact (h.setHost _).sticky _ _

theorem State.TurnBegins.hcfg {r : State} (hr : s.TurnBegins r) : r.hcfg = s.hcfg := by
  obtain rfl | ⟨w, rest, -, rfl⟩ := hr <;> rfl

/-- A new request of a step is issued by a line of the command CUR names, in the turn that the step is. -/
theorem step_request (h : step s = .next t) (hq : q ∈ t.trace.drop s.trace.length) :
    ∃ r, s.TurnBegins r ∧ r.hstat.busy = true ∧ r.Issues s.fetch q := by
  have hsame : t.trace ≠ s.trace := fun he => by simp [he] at hq
  rcases step_next_cases h with ⟨r, hr, h⟩ | ⟨off, w, rest, -, rfl⟩ | ⟨rest, -, rfl⟩ | ⟨-, htrace⟩
  · obtain ⟨-, -, -, -, htrace, hfetch⟩ := hr.hstat
    refine ⟨r, hr, ?_, ?_⟩
    · rcases sequencerTurn_next h with ⟨-, l, rfl⟩ | ⟨hb, -⟩
      · exact absurd htrace hsame
      · exact hb
    · rw [← hfetch]
      exact (sequencerTurn_logs h).mem_drop (by rwa [htrace])
  · exact absurd (hostWrite_trace _ off w) hsame
  · exact absurd rfl hsame
  · exact absurd htrace hsame

/-- Where the invariant holds, a request is issued by a line past the prologue, which has let the command in
(60_exceptions R171). -/
theorem State.Sound.request_admitted (h : u.Sound f) (hf : HostCommand f)
    (hop : (linesFor f u.hcfg.subst)[u.pos]? = some op) (hq : op.request? u = some q) :
    ∃ i, f = .ok i ∧ i.wellFormed = true ∧ (needOf i = .live → u.hcfg.subst = .liveDevice) := by
  cases f with
  | error e =>
    obtain rfl := List.mem_singleton.mp (List.mem_of_getElem? hop)
    cases hq
  | ok i =>
    refine ⟨i, rfl, h.admitted (Nat.pos_of_ne_zero fun hzero => ?_) i rfl⟩
    obtain ⟨rest, hl⟩ := linesOf_first (hf i rfl) u.hcfg.subst
    rw [linesFor, hl, hzero, List.getElem?_cons_zero] at hop
    obtain rfl := Option.some.inj hop
    cases hq

/-- From the invariant, a new request of a step is issued by a line of an admitted command, in a state that is sound
for it. -/
theorem State.Inv.step_request (hinv : s.Inv) (h : step s = .next t) (hq : q ∈ t.trace.drop s.trace.length) :
    ∃ (i : Instr) (u : State) (op : MicroOp), s.fetch = .ok i ∧ i.wellFormed = true ∧
      (needOf i = .live → s.hcfg.subst = .liveDevice) ∧ u.Sound s.fetch ∧
      (linesOf i s.hcfg.subst)[u.pos]? = some op ∧ op.request? u = some q := by
  obtain ⟨r, hr, hb, u, op, hu, hop, hreq⟩ := Machine.step_request h hq
  have hcfg : u.hcfg = s.hcfg := hu.hostSide.hcfg.trans hr.hcfg
  have hsound : u.Sound s.fetch := by
    obtain ⟨-, -, -, -, -, hfetch⟩ := hr.hstat
    exact hu.sound (hfetch ▸ (hr.inv hinv).sound hb)
  obtain ⟨i, hi, hwf, hlive⟩ := hsound.request_admitted s.fetch_hostCommand hop hreq
  rw [hcfg] at hop hlive
  rw [hi] at hop
  exact ⟨i, u, op, hi, hwf, hlive, hsound, hop, hreq⟩

end

end Sys2Proof.Machine
end

section
/-! The EEPROM address OZEC writes to chip register 0x5E (20_memory R68): every line that writes it, WRREG's aside,
writes an even address of at most 126, once the command's operands are in their domain. -/

namespace Sys2Proof.Machine

/-! ### The addresses -/

theorem eaddrOk_iff (a : Byte) : eaddrOk a = true ↔ a.toNat % 2 = 0 ∧ a.toNat ≤ 126 := by
  simp [eaddrOk]

theorem wordAddr_ok {k : Nat} (h : k < wordCount) : eaddrOk (wordAddr k) = true := by
  rw [eaddrOk_iff, wordAddr, BitVec.toNat_ofNat]
  change k < 64 at h
  omega

theorem threshAddr_ok {sel : Byte} (h : threshOk sel = true) : eaddrOk (threshAddr sel) = true := by
  have hsel : sel.toNat ≤ 3 := by simpa [threshOk] using h
  rw [eaddrOk_iff, threshAddr]
  constructor <;> bv_omega

theorem offsetAddr_ok (sel : Byte) : eaddrOk (offsetAddr sel) = true := by
  unfold offsetAddr
  split <;> decide

/-! ### The lines -/

/-- If the line writes 0x5E, it writes an EEPROM word's address (20_memory R68). -/
def MicroOp.AddressOk : MicroOp → Prop
  | .busW reg v => reg = regEeAddr → ∀ s, eaddrOk (v s) = true
  | _ => True

/-- The request of such a line. -/
theorem MicroOp.AddressOk.request {op : MicroOp} (h : op.AddressOk) {u : State} {dev : BitVec 7} {v : Byte}
    (hq : op.request? u = some (.busW dev regEeAddr v)) : eaddrOk v = true := by
  cases op with
  | busW reg value =>
    obtain ⟨-, hreg, rfl⟩ := Request.busW.inj (Option.some.inj hq)
    exact h hreg u
  | _ => cases hq

@[simp] theorem addressOk_busW (reg : Byte) (v : State → Byte) :
    (MicroOp.busW reg v).AddressOk ↔ (reg = regEeAddr → ∀ s, eaddrOk (v s) = true) := Iff.rfl
@[simp] theorem addressOk_compute (f : State → Except ErrCode State) : (MicroOp.compute f).AddressOk := trivial
@[simp] theorem addressOk_poll : MicroOp.poll.AddressOk := trivial
@[simp] theorem addressOk_busR (reg : Byte) (store : Byte → State → State) :
    (MicroOp.busR reg store).AddressOk := trivial
@[simp] theorem addressOk_fileSize : MicroOp.fileSize.AddressOk := trivial
@[simp] theorem addressOk_fileRead (off n : Nat) : (MicroOp.fileRead off n).AddressOk := trivial
@[simp] theorem addressOk_fileWriteAll (bytes : State → List Byte) : (MicroOp.fileWriteAll bytes).AddressOk := trivial
@[simp] theorem addressOk_finish : MicroOp.finish.AddressOk := trivial
@[simp] theorem addressOk_act (f : State → State) : (act f).AddressOk := trivial
@[simp] theorem addressOk_require (p : State → Bool) (code : ErrCode) : (require p code).AddressOk := trivial
@[simp] theorem addressOk_enterWord (k : Nat) : (enterWord k).AddressOk := trivial
@[simp] theorem addressOk_leaveLoop : leaveLoop.AddressOk := trivial

/-! ### The sub-procedures (41_eeprom R112-R115) -/

theorem addressOk_waitWrite {reg : Byte} {v : State → Byte} (h : reg = regEeAddr → ∀ s, eaddrOk (v s) = true) :
    ∀ op ∈ waitWrite reg v, op.AddressOk := by
  simpa [waitWrite, waitOps] using h

theorem addressOk_waitWrite_other {reg : Byte} (v : State → Byte) (h : reg ≠ regEeAddr) :
    ∀ op ∈ waitWrite reg v, op.AddressOk :=
  addressOk_waitWrite fun he => absurd he h

theorem addressOk_waitRead (reg : Byte) (store : Byte → State → State) :
    ∀ op ∈ waitRead reg store, op.AddressOk := by
  simp [waitRead, waitOps]

theorem addressOk_lockOps : ∀ op ∈ lockOps, op.AddressOk := addressOk_waitWrite_other _ (by decide)

section
variable {a : Byte} (ha : eaddrOk a = true) (store0 store1 : Byte → State → State)
include ha

theorem addressOk_eeReadLive : ∀ op ∈ eeReadLive a store0 store1, op.AddressOk := by
  simp only [eeReadLive, List.forall_mem_append]
  exact ⟨⟨⟨⟨addressOk_waitWrite fun _ _ => ha, addressOk_waitWrite_other _ (by decide)⟩, addressOk_waitRead _ _⟩,
    addressOk_waitRead _ _⟩, addressOk_lockOps⟩

theorem addressOk_eeRead (subst : Substrate) : ∀ op ∈ eeRead subst a store0 store1, op.AddressOk := by
  cases subst with
  | liveDevice => exact addressOk_eeReadLive ha store0 store1
  | fileImage => simp [eeRead, eeReadFile, requireImageSize]

theorem addressOk_eeWrite (b0 b1 : State → Byte) : ∀ op ∈ eeWrite a b0 b1, op.AddressOk := by
  simp only [eeWrite, List.forall_mem_append]
  exact ⟨⟨⟨⟨addressOk_waitWrite_other _ (by decide), addressOk_waitWrite fun _ _ => ha⟩,
    addressOk_waitWrite_other _ (by decide)⟩, addressOk_waitWrite_other _ (by decide)⟩, addressOk_lockOps⟩

end

/-! ### The commands -/

theorem addressOk_rdimg (subst : Substrate) : ∀ op ∈ rdimgProgram subst, op.AddressOk := by
  simp only [rdimgProgram, rdimgWord, List.forall_mem_cons, List.forall_mem_append, List.forall_mem_flatMap,
    List.mem_range]
  exact ⟨trivial, fun k hk => ⟨by simp, addressOk_eeRead (wordAddr_ok hk) _ _ _, by simp⟩, by simp⟩

theorem addressOk_authOps : ∀ op ∈ authOps, op.AddressOk := by
  simp only [authOps, List.forall_mem_append]
  exact ⟨⟨⟨⟨addressOk_eeReadLive (by decide) _ _, by simp⟩, addressOk_waitWrite_other _ (by decide)⟩, by simp⟩,
    addressOk_lockOps⟩

theorem addressOk_eraseOps : ∀ op ∈ eraseOps, op.AddressOk := by
  simp only [eraseOps, rewriteWord, List.forall_mem_cons, List.forall_mem_append, List.forall_mem_flatMap,
    List.mem_range]
  exact ⟨addressOk_waitWrite_other _ (by decide), fun k hk => ⟨by simp, addressOk_eeWrite (wordAddr_ok hk) _ _⟩⟩

theorem addressOk_rewrite : ∀ op ∈ rewriteProgram, op.AddressOk := by
  simp only [rewriteProgram, requireComplete, requirePasswordOk, List.forall_mem_append]
  exact ⟨⟨⟨⟨by simp, addressOk_authOps⟩, by simp⟩, addressOk_eraseOps⟩, by simp⟩

/-- No line of an admitted command other than WRREG writes a bad address to 0x5E. -/
theorem addressOk_linesOf {i : Instr} (hwf : i.wellFormed = true) (hw : ∀ reg data, i ≠ .wrreg reg data)
    (subst : Substrate) : ∀ op ∈ linesOf i subst, op.AddressOk := by
  cases i with
  | wrreg reg data => exact absurd rfl (hw reg data)
  | rdreg reg => simp [linesOf, rdregProgram]
  | chipid => simp [linesOf, chipidProgram]
  | reboot => simp [linesOf, rebootProgram]
  | rdword ea =>
    simp only [linesOf, rdwordProgram, List.forall_mem_cons, List.forall_mem_append]
    exact ⟨trivial, addressOk_eeRead hwf _ _ _, by simp⟩
  | wrword ea b0 b1 =>
    simp only [linesOf, wrwordProgram, List.forall_mem_cons, List.forall_mem_append]
    exact ⟨trivial, addressOk_eeWrite hwf _ _, by simp⟩
  | lock =>
    simp only [linesOf, lockProgram, List.forall_mem_cons, List.forall_mem_append]
    exact ⟨trivial, addressOk_lockOps, by simp⟩
  | rdimg => exact addressOk_rdimg subst
  | rewrite => exact addressOk_rewrite
  | loadimg => simp [linesOf, loadimgProgram, requireImageSize]
  | saveimg => simp [linesOf, saveimgProgram, requireComplete]
  | cellv sel => simp [linesOf, cellvProgram]
  | curr =>
    simp only [linesOf, currProgram, List.forall_mem_append]
    exact ⟨⟨by simp, addressOk_eeReadLive (by decide) _ _⟩, by simp⟩
  | rsense =>
    simp only [linesOf, rsenseProgram, List.forall_mem_cons, List.forall_mem_append]
    exact ⟨trivial, addressOk_eeRead (by decide) _ _ _, by simp⟩
  | limit sel lsb wm1 =>
    simp only [linesOf, limitProgram, List.forall_mem_cons, List.forall_mem_append]
    exact ⟨trivial, by simp,
      ⟨⟨addressOk_eeRead (by decide) _ _ _, addressOk_eeRead (offsetAddr_ok sel) _ _ _⟩,
        addressOk_eeRead (by decide) _ _ _⟩, by simp⟩
  | thresh sel =>
    simp only [linesOf, threshProgram, List.forall_mem_cons, List.forall_mem_append]
    exact ⟨trivial, by simp, addressOk_eeRead (threshAddr_ok hwf) _ _ _, by simp⟩
  | adc2mv code => simp [linesOf, adc2mvProgram]
  | v2adc x => simp [linesOf, v2adcProgram]
  | setrs t => simp [linesOf, setrsProgram]
  | setvl sel val => simp [linesOf, setvlProgram]
  | unpack ea lsb wm1 sgn =>
    obtain ⟨hea, -⟩ : eaddrOk ea = true ∧ fieldOk lsb wm1 = true := Bool.and_eq_true_iff.mp hwf
    simp only [linesOf, unpackProgram, List.forall_mem_cons, List.forall_mem_append]
    exact ⟨trivial, addressOk_eeRead hea _ _ _, by simp⟩
  | sext4 b => simp [linesOf, sext4Program]
  | decauth x => simp [linesOf, decauthProgram]
  | eeLock | eeAuth | eeWrite | eeErase | eeRead => simp [linesOf]

/-- WRREG writes its own operands only. -/
theorem wrreg_request {reg data : Byte} {op : MicroOp} (hop : op ∈ wrregProgram reg data) {u : State}
    {dev : BitVec 7} {r v : Byte} (hq : op.request? u = some (.busW dev r v)) : r = reg ∧ v = data := by
  simp only [wrregProgram, List.mem_cons, List.not_mem_nil, or_false] at hop
  obtain rfl | rfl | rfl := hop
  · cases hq
  · cases hq
    exact ⟨rfl, rfl⟩
  · cases hq

/-! ### The statement -/

/-- Settles O58: the line that issues the write belongs to an admitted command; WRREG's writes its operands, and any
other command's an EEPROM word's address. -/
theorem badEepromAddressNeverReachesChip : Obligations.BadEepromAddressNeverReachesChip := by
  intro s t dev v hinv h hmem
  obtain ⟨i, u, op, hi, hwf, -, -, hop, hreq⟩ := hinv.step_request h hmem
  have hline : op ∈ linesOf i s.hcfg.subst := List.mem_of_getElem? hop
  by_cases hw : ∃ reg data, i = .wrreg reg data
  · obtain ⟨reg, data, rfl⟩ := hw
    obtain ⟨rfl, rfl⟩ := wrreg_request hline hreq
    exact .inr hi
  · have hother : ∀ reg data, i ≠ .wrreg reg data := fun reg data he => hw ⟨reg, data, he⟩
    exact .inl ((eaddrOk_iff v).mp ((addressOk_linesOf hwf hother _ op hline).request hreq))

end Sys2Proof.Machine
end

section
/-! The decoder as a table: one row per command with its opcode, its reserved-zero bits and its operands; each word by
its fields; and so a code is an instruction's exactly when it decodes to it (30_encoding R86, R87, R91). -/

namespace Sys2Proof

open Machine

/-! ### The table -/

/-- A row of the table of commands (30_encoding R87): the opcode, the reserved-zero bits `start` to
`start + len - 1`, and the instruction the other bits are the operands of. -/
structure CommandRow where
  op : Byte
  start : Nat
  len : Nat
  instr : Word32 → Instr

/-- The rows in the order the decoder tries them. -/
def commandTable : List CommandRow :=
  [⟨0x01, 0, 16, fun w => .rdreg (byte2Field w)⟩,
   ⟨0x02, 0, 8, fun w => .wrreg (byte2Field w) (byte1Field w)⟩,
   ⟨0x03, 0, 24, fun _ => .chipid⟩,
   ⟨0x04, 0, 24, fun _ => .reboot⟩,
   ⟨0x10, 0, 16, fun w => .rdword (byte2Field w)⟩,
   ⟨0x11, 0, 0, fun w => .wrword (byte2Field w) (byte1Field w) (byte0Field w)⟩,
   ⟨0x12, 0, 24, fun _ => .lock⟩,
   ⟨0x13, 0, 24, fun _ => .rdimg⟩,
   ⟨0x14, 0, 24, fun _ => .rewrite⟩,
   ⟨0x18, 0, 24, fun _ => .loadimg⟩,
   ⟨0x19, 0, 24, fun _ => .saveimg⟩,
   ⟨0x20, 0, 16, fun w => .cellv (byte2Field w)⟩,
   ⟨0x21, 0, 24, fun _ => .curr⟩,
   ⟨0x22, 0, 24, fun _ => .rsense⟩,
   ⟨0x23, 0, 8, fun w => .limit (byte2Field w) (lsbField w) (wm1Field w)⟩,
   ⟨0x24, 0, 16, fun w => .thresh (byte2Field w)⟩,
   ⟨0x25, 13, 11, fun w => .adc2mv (w.extractLsb' 0 13)⟩,
   ⟨0x26, 0, 0, fun w => .v2adc (w.extractLsb' 0 24)⟩,
   ⟨0x27, 16, 8, fun w => .setrs (w.extractLsb' 0 16)⟩,
   ⟨0x28, 20, 2, fun w => .setvl (w.extractLsb' 22 2) (w.extractLsb' 0 20)⟩,
   ⟨0x30, 0, 7, fun w => .unpack (byte2Field w) (lsbField w) (wm1Field w) (sgnField w)⟩,
   ⟨0x31, 8, 16, fun w => .sext4 (byte0Field w)⟩,
   ⟨0x38, 8, 16, fun w => .decauth (byte0Field w)⟩]

/-- The word has the row's opcode, and its reserved bits are 0. -/
def CommandRow.Matches (r : CommandRow) (w : Word32) : Prop :=
  opField w = r.op ∧ w.extractLsb' r.start r.len = 0

/-- The decoder over a list of rows: the first row of the word's opcode decides. -/
def decodeRows : List CommandRow → Word32 → Except DecodeError Instr
  | [], _ => .error .unknownOpcode
  | r :: rest, w =>
    if opField w = r.op then reserved (w.extractLsb' r.start r.len == 0) (r.instr w) else decodeRows rest w

theorem decodeCommand_eq_decodeRows (w : Word32) : decodeCommand w = decodeRows commandTable w := by
  have hnone (i : Instr) : reserved (w.extractLsb' 0 0 == 0) i = .ok i := by
    simp [reserved, BitVec.extractLsb'_eq_zero]
  simp only [commandTable, decodeRows, hnone]
  rfl

theorem reserved_ok_iff {z : Bool} {i j : Instr} : reserved z i = .ok j ↔ z = true ∧ i = j := by
  cases z <;> simp [reserved]

theorem decodeRows_ok_iff {rows : List CommandRow} (hops : rows.Pairwise fun a b => a.op ≠ b.op) {w : Word32}
    {i : Instr} : decodeRows rows w = .ok i ↔ ∃ r ∈ rows, r.Matches w ∧ r.instr w = i := by
  induction rows with
  | nil => simp [decodeRows]
  | cons r rest ih =>
    obtain ⟨hr, hrest⟩ := List.pairwise_cons.mp hops
    rw [decodeRows, List.exists_mem_cons_iff]
    split
    · next hop =>
      have hother : ¬ ∃ r' ∈ rest, r'.Matches w ∧ r'.instr w = i := by
        rintro ⟨r', hr', ⟨hop', -⟩, -⟩
        exact hr r' hr' (hop.symm.trans hop')
      rw [or_iff_left hother, reserved_ok_iff, beq_iff_eq, CommandRow.Matches, and_iff_right hop]
    · next hop => simp [CommandRow.Matches, hop, ih hrest]

/-- No two rows have the same opcode. -/
theorem commandTable_ops : commandTable.Pairwise fun a b => a.op ≠ b.op := by
  simp [commandTable]

/-- A word is the instruction of the one row it matches (30_encoding R87, R89). -/
theorem decodeCommand_ok_iff {w : Word32} {i : Instr} :
    decodeCommand w = .ok i ↔ ∃ r ∈ commandTable, r.Matches w ∧ r.instr w = i := by
  rw [decodeCommand_eq_decodeRows, decodeRows_ok_iff commandTable_ops]

/-! ### Words by their fields (30_encoding R86)

The lemmas of the formats put the reserved bits next to the opcode, as a row's test has them. -/

/-- Two fields side by side are a field of a word exactly when each is its part of it. -/
theorem extractLsb'_eq_append_iff {n v u start : Nat} {x : BitVec v} {y : BitVec u} {w : BitVec n} :
    w.extractLsb' start (v + u) = x ++ y ↔ w.extractLsb' (start + u) v = x ∧ w.extractLsb' start u = y := by
  rw [← BitVec.extractLsb'_append_extractLsb'_eq_extractLsb' rfl]
  constructor
  · intro h
    have hhi := congrArg (BitVec.extractLsb' u v) h
    have hlo := congrArg (BitVec.extractLsb' 0 u) h
    rw [BitVec.extractLsb'_append_eq_left, BitVec.extractLsb'_append_eq_left] at hhi
    rw [BitVec.extractLsb'_append_eq_right, BitVec.extractLsb'_append_eq_right] at hlo
    exact ⟨hhi, hlo⟩
  · rintro ⟨rfl, rfl⟩
    rfl

/-- A whole word from its upper and its lower part. -/
theorem append_eq_word_iff {v u : Nat} {x : BitVec v} {y : BitVec u} {w : BitVec (v + u)} :
    x ++ y = w ↔ w.extractLsb' u v = x ∧ w.extractLsb' 0 u = y := by
  have h := extractLsb'_eq_append_iff (start := 0) (x := x) (y := y) (w := w)
  rwa [BitVec.extractLsb'_eq_self, Nat.zero_add, eq_comm] at h

section
variable {n₁ n₂ n₃ n₄ n₅ n₆ : Nat} {x₁ : BitVec n₁} {x₂ : BitVec n₂} {x₃ : BitVec n₃} {x₄ : BitVec n₄}
  {x₅ : BitVec n₅} {x₆ : BitVec n₆}

theorem append₃_eq_word_iff {w : BitVec (n₁ + n₂ + n₃)} : x₁ ++ x₂ ++ x₃ = w ↔
    w.extractLsb' (n₃ + n₂) n₁ = x₁ ∧ w.extractLsb' n₃ n₂ = x₂ ∧ w.extractLsb' 0 n₃ = x₃ := by
  rw [append_eq_word_iff, extractLsb'_eq_append_iff, and_assoc]

theorem append₄_eq_word_iff {w : BitVec (n₁ + n₂ + n₃ + n₄)} : x₁ ++ x₂ ++ x₃ ++ x₄ = w ↔
    w.extractLsb' (n₄ + n₃ + n₂) n₁ = x₁ ∧ w.extractLsb' (n₄ + n₃) n₂ = x₂ ∧ w.extractLsb' n₄ n₃ = x₃ ∧
      w.extractLsb' 0 n₄ = x₄ := by
  rw [append₃_eq_word_iff, extractLsb'_eq_append_iff, and_assoc]

theorem append₅_eq_word_iff {w : BitVec (n₁ + n₂ + n₃ + n₄ + n₅)} : x₁ ++ x₂ ++ x₃ ++ x₄ ++ x₅ = w ↔
    w.extractLsb' (n₅ + n₄ + n₃ + n₂) n₁ = x₁ ∧ w.extractLsb' (n₅ + n₄ + n₃) n₂ = x₂ ∧
      w.extractLsb' (n₅ + n₄) n₃ = x₃ ∧ w.extractLsb' n₅ n₄ = x₄ ∧ w.extractLsb' 0 n₅ = x₅ := by
  rw [append₄_eq_word_iff, extractLsb'_eq_append_iff, and_assoc]

theorem append₆_eq_word_iff {w : BitVec (n₁ + n₂ + n₃ + n₄ + n₅ + n₆)} :
    x₁ ++ x₂ ++ x₃ ++ x₄ ++ x₅ ++ x₆ = w ↔
    w.extractLsb' (n₆ + n₅ + n₄ + n₃ + n₂) n₁ = x₁ ∧ w.extractLsb' (n₆ + n₅ + n₄ + n₃) n₂ = x₂ ∧
      w.extractLsb' (n₆ + n₅ + n₄) n₃ = x₃ ∧ w.extractLsb' (n₆ + n₅) n₄ = x₄ ∧ w.extractLsb' n₆ n₅ = x₅ ∧
      w.extractLsb' 0 n₆ = x₆ := by
  rw [append₅_eq_word_iff, extractLsb'_eq_append_iff, and_assoc]

end

section
variable {w : Word32} {op a b c : Byte} {lsb wm1 : BitVec 4}

/-- The opcode and 24 more bits: formats N and I. -/
theorem imm24_eq_iff {x : BitVec 24} : op ++ x = w ↔ opField w = op ∧ w.extractLsb' 0 24 = x :=
  append_eq_word_iff

/-- One operand byte after the opcode: formats R and S. -/
theorem byte2_eq_iff :
    op ++ a ++ 0#16 = w ↔ (opField w = op ∧ w.extractLsb' 0 16 = 0) ∧ byte2Field w = a :=
  append₃_eq_word_iff.trans (and_congr_right' and_comm) |>.trans and_assoc.symm

/-- One operand byte at the end of the word: format I of SEXT4 and DECAUTH. -/
theorem byte0_eq_iff :
    op ++ 0#16 ++ a = w ↔ (opField w = op ∧ w.extractLsb' 8 16 = 0) ∧ byte0Field w = a :=
  append₃_eq_word_iff.trans and_assoc.symm

/-- 16 immediate bits: format I of SETRS. -/
theorem imm16_eq_iff {x : BitVec 16} :
    op ++ 0#8 ++ x = w ↔ (opField w = op ∧ w.extractLsb' 16 8 = 0) ∧ w.extractLsb' 0 16 = x :=
  append₃_eq_word_iff.trans and_assoc.symm

/-- 13 immediate bits: format I of ADC2MV. -/
theorem imm13_eq_iff {x : BitVec 13} :
    op ++ 0#11 ++ x = w ↔ (opField w = op ∧ w.extractLsb' 13 11 = 0) ∧ w.extractLsb' 0 13 = x :=
  append₃_eq_word_iff.trans and_assoc.symm

/-- Format R with two operands. -/
theorem byte21_eq_iff : op ++ a ++ b ++ 0#8 = w ↔
    (opField w = op ∧ w.extractLsb' 0 8 = 0) ∧ byte2Field w = a ∧ byte1Field w = b :=
  append₄_eq_word_iff.trans ⟨fun ⟨ho, ha, hb, hz⟩ => ⟨⟨ho, hz⟩, ha, hb⟩, fun ⟨⟨ho, hz⟩, ha, hb⟩ => ⟨ho, ha, hb, hz⟩⟩

/-- Format W, which has no reserved bits. -/
theorem formatW_eq_iff : op ++ a ++ b ++ c = w ↔
    opField w = op ∧ byte2Field w = a ∧ byte1Field w = b ∧ byte0Field w = c :=
  append₄_eq_word_iff

theorem formatL_eq_iff : op ++ a ++ lsb ++ wm1 ++ 0#8 = w ↔
    (opField w = op ∧ w.extractLsb' 0 8 = 0) ∧ byte2Field w = a ∧ lsbField w = lsb ∧ wm1Field w = wm1 :=
  append₅_eq_word_iff.trans
    ⟨fun ⟨ho, ha, hl, hw, hz⟩ => ⟨⟨ho, hz⟩, ha, hl, hw⟩, fun ⟨⟨ho, hz⟩, ha, hl, hw⟩ => ⟨ho, ha, hl, hw, hz⟩⟩

/-- SGN as a field of one bit. -/
theorem sgnField_eq_iff {sgn : Bool} : w.extractLsb' 7 1 = BitVec.ofBool sgn ↔ sgnField w = sgn := by
  rw [sgnField, BitVec.getLsbD_eq_extractLsb']
  generalize w.extractLsb' 7 1 = x
  revert x sgn
  decide

theorem formatF_eq_iff {sgn : Bool} : op ++ a ++ lsb ++ wm1 ++ BitVec.ofBool sgn ++ 0#7 = w ↔
    (opField w = op ∧ w.extractLsb' 0 7 = 0) ∧
      byte2Field w = a ∧ lsbField w = lsb ∧ wm1Field w = wm1 ∧ sgnField w = sgn := by
  rw [← sgnField_eq_iff]
  exact append₆_eq_word_iff.trans ⟨fun ⟨ho, ha, hl, hw, hs, hz⟩ => ⟨⟨ho, hz⟩, ha, hl, hw, hs⟩,
    fun ⟨⟨ho, hz⟩, ha, hl, hw, hs⟩ => ⟨ho, ha, hl, hw, hs, hz⟩⟩

theorem formatV_eq_iff {sel : BitVec 2} {val : BitVec 20} : op ++ sel ++ 0#2 ++ val = w ↔
    (opField w = op ∧ w.extractLsb' 20 2 = 0) ∧ w.extractLsb' 22 2 = sel ∧ w.extractLsb' 0 20 = val :=
  append₄_eq_word_iff.trans ⟨fun ⟨ho, hs, hz, hv⟩ => ⟨⟨ho, hz⟩, hs, hv⟩, fun ⟨⟨ho, hz⟩, hs, hv⟩ => ⟨ho, hs, hz, hv⟩⟩

end

/-- A word is a command's code exactly when the word decodes to it: its format's fields are those the command's row
reads, and every other row gives another constructor. -/
theorem encode_eq_command_iff {i : Instr} {w : Word32} : encode i = .command w ↔ decodeCommand w = .ok i := by
  rw [decodeCommand_ok_iff]
  simp only [commandTable, CommandRow.Matches, List.exists_mem_cons_iff, List.not_mem_nil, false_and, exists_false,
    BitVec.extractLsb'_eq_zero]
  cases i <;> simp only [reduceCtorEq, and_false, false_or, or_false] <;> rw [encode]
  case chipid | reboot | lock | rdimg | rewrite | loadimg | saveimg | curr | rsense | v2adc =>
    rw [Code.command.injEq, imm24_eq_iff]
    simp
  case rdreg | rdword | cellv | thresh =>
    rw [Code.command.injEq, byte2_eq_iff]
    simp
  case wrreg =>
    rw [Code.command.injEq, byte21_eq_iff]
    simp
  case wrword =>
    rw [Code.command.injEq, formatW_eq_iff]
    simp
  case limit =>
    rw [Code.command.injEq, formatL_eq_iff]
    simp
  case unpack =>
    rw [Code.command.injEq, formatF_eq_iff]
    simp
  case setvl =>
    rw [Code.command.injEq, formatV_eq_iff]
    simp
  case setrs =>
    rw [Code.command.injEq, imm16_eq_iff]
    simp
  case adc2mv =>
    rw [Code.command.injEq, imm13_eq_iff]
    simp
  case sext4 | decauth =>
    rw [Code.command.injEq, byte0_eq_iff]
    simp
  case eeLock | eeAuth | eeWrite | eeErase | eeRead => simp

theorem encode_eq_control_iff {i : Instr} {b : Byte} : encode i = .control b ↔ decodeControl b = .ok i := by
  constructor
  · intro h
    cases i with
    | eeLock | eeAuth | eeWrite | eeErase | eeRead =>
      cases h
      rfl
    | _ => cases h
  · intro h
    unfold decodeControl at h
    split_ifs at h <;> cases h <;> subst b <;> rfl

/-- Encoding and decoding are inverse: a code is an instruction's exactly when it decodes to it. -/
theorem encode_eq_iff {i : Instr} {c : Code} : encode i = c ↔ decode c = .ok i := by
  cases c with
  | command w => exact encode_eq_command_iff
  | control b => exact encode_eq_control_iff

/-- Settles O1: an instruction's code is the code that decodes to it. -/
theorem decodeOfEncode : Obligations.DecodeOfEncode :=
  fun _ => encode_eq_iff.mp rfl

/-- Settles O2: the same equivalence from right to left. -/
theorem encodeOfDecode : Obligations.EncodeOfDecode :=
  fun _ _ h => encode_eq_iff.mpr h

/-! ### Masks (30_encoding R87) -/

/-- The bits the row's test looks at: the opcode and the reserved-zero bits. -/
def CommandRow.mask (r : CommandRow) : Word32 :=
  0xFF000000 ||| (BitVec.allOnes r.len).setWidth 32 <<< r.start

/-- The masks and matches are those of the table the decoder follows. -/
theorem commandRows_eq : commandRows = commandTable.map fun r => (r.mask, r.op ++ 0#24) := by
  decide

section
variable {r : CommandRow}

theorem CommandRow.getLsbD_mask (hr : r.start + r.len ≤ 24) (k : Nat) :
    r.mask.getLsbD k = decide ((24 ≤ k ∧ k < 32) ∨ (r.start ≤ k ∧ k < r.start + r.len)) := by
  have hop : (0xFF000000 : Word32).getLsbD k = decide (24 ≤ k ∧ k < 32) := by
    by_cases hk : k < 32
    · interval_cases k <;> rfl
    · rw [BitVec.getLsbD_of_ge _ k (by omega), eq_comm, decide_eq_false_iff_not]
      omega
  simp only [CommandRow.mask, BitVec.getLsbD_or, hop, BitVec.getLsbD_shiftLeft, BitVec.getLsbD_setWidth,
    BitVec.getLsbD_allOnes]
  grind

theorem CommandRow.opField_and_mask (hr : r.start + r.len ≤ 24) (w : Word32) : opField (w &&& r.mask) = opField w := by
  ext k hk
  simp [opField, getLsbD_mask hr, show 24 + k < 32 by omega]

/-- Below the opcode the mask leaves the reserved bits. -/
theorem CommandRow.low_and_mask (hr : r.start + r.len ≤ 24) (w : Word32) :
    (w &&& r.mask).extractLsb' 0 24 = 0 ↔ w.extractLsb' r.start r.len = 0 := by
  constructor
  · intro h
    ext k hk
    have hbit := congrArg (·.getLsbD (r.start + k)) h
    simpa [getLsbD_mask hr, hk, show r.start + k < 24 by omega] using hbit
  · intro h
    ext k hk
    have hbit := congrArg (·.getLsbD (k - r.start)) h
    simp only [BitVec.getLsbD_extractLsb', BitVec.getElem_extractLsb', BitVec.getLsbD_and, getLsbD_mask hr] at hbit ⊢
    grind

/-- The row's test of its mask and match is that of its opcode and reserved bits. -/
theorem CommandRow.and_mask_eq_iff (hr : r.start + r.len ≤ 24) (w : Word32) :
    w &&& r.mask = r.op ++ 0#24 ↔ r.Matches w := by
  rw [eq_comm, imm24_eq_iff, opField_and_mask hr, CommandRow.Matches]
  exact and_congr_right' (low_and_mask hr w)

end

/-- No row reserves bits of the opcode. -/
theorem commandTable_reserved : ∀ r ∈ commandTable, r.start + r.len ≤ 24 := by
  decide

/-- A word passes some row's mask test exactly when it matches a row of the decoder's table. -/
theorem legalWord_iff {w : Word32} : legalWord w = true ↔ ∃ r ∈ commandTable, r.Matches w := by
  rw [legalWord, commandRows_eq, List.any_map, List.any_eq_true]
  refine exists_congr fun r => and_congr_right fun hr => ?_
  rw [Function.comp_apply, beq_iff_eq, CommandRow.and_mask_eq_iff (commandTable_reserved r hr)]

/-- Settles O3: a word is legal, and decodes, exactly when it matches a row of the table. -/
theorem legalExactlyWhenMaskMatches : Obligations.LegalExactlyWhenMaskMatches := by
  intro w
  simp only [legalWord_iff, decodeCommand_ok_iff]
  constructor
  · rintro ⟨r, hr, hw⟩
    exact ⟨r.instr w, r, hr, hw, rfl⟩
  · rintro ⟨-, r, hr, hw, -⟩
    exact ⟨r, hr, hw⟩

/-- Settles O4: each is the value of the decoder at one code. -/
theorem workedEncodingsDecode : Obligations.WorkedEncodingsDecode := by
  refine ⟨?_, ?_, ?_, ?_, ?_, ?_, ?_, ?_, ?_, ?_, ?_, ?_, ?_, ?_, ?_, ?_, ?_, ?_, ?_, ?_, ?_⟩ <;> rfl

end Sys2Proof
end

section
/-! What a command refused at its first line does (30_encoding R89, R90), and what a control code does (R91). -/

namespace Sys2Proof.Machine

/-! ### Refused commands -/

section
variable {s : State}

/-- At the host side's rest or pass the step is the sequencer's turn. -/
theorem step_eq_sequencerTurn (h : s.host = [] ∨ ∃ rest, s.host = .pass :: rest) : step s = sequencerTurn s := by
  rcases h with h | ⟨rest, h⟩ <;> simp [step, hostTurn, h]

/-- A command whose first line refuses it ends there, with the error and nothing else (60_exceptions R172). -/
theorem runProgram_refused {f : State → Except ErrCode State} {code : ErrCode} (hs : s.atStart)
    (hf : f s = .error code) (rest : List MicroOp) : runProgram (.compute f :: rest) s = .next (s.raise code) := by
  obtain ⟨hpos, hhost⟩ := hs
  rw [runProgram_atStart hpos, runOps_compute_error hf hhost]

/-- Opcode 0 is in no row (30_encoding R89). -/
theorem legalWord_of_opcode_zero {w : Word32} (h : opField w = 0) : legalWord w = false := by
  have hops : ∀ r ∈ commandTable, r.op ≠ 0 := by decide
  rw [← Bool.not_eq_true, legalWord_iff]
  rintro ⟨r, hr, hop, -⟩
  exact hops r hr (hop.symm.trans h)

/-- The lines of a word that is no command (30_encoding R89). -/
theorem lines_of_illegal (h : legalWord s.cur = false) : s.lines = illegalProgram := by
  unfold State.lines
  split
  · next i hi => simp [(legalExactlyWhenMaskMatches s.cur).mpr ⟨i, hi⟩] at h
  · rfl

/-- Settles O9: opcode 0 is in no row, and an illegal word's one line raises ILLEGAL_COMMAND. -/
theorem illegalCommandCompletes : Obligations.IllegalCommandCompletes := by
  refine ⟨fun w h => legalWord_of_opcode_zero h, fun s hb hw hs => ?_⟩
  have ⟨_, hhost⟩ := hs
  rw [step_eq_sequencerTurn (.inl hhost), sequencerTurn_eq, if_pos hb, lines_of_illegal hw]
  exact runProgram_refused hs rfl []

/-- Settles O19: the prologue's second check refuses the command at its first line. -/
theorem outOfDomainRefused : Obligations.OutOfDomainRefused := by
  intro i s hs hwf
  have hc : isControl i = false := by
    cases i with
    | eeLock | eeAuth | eeWrite | eeErase | eeRead => cases hwf
    | _ => rfl
  obtain ⟨rest, hl⟩ := linesOf_first hc s.hcfg.subst
  rw [exec_eq_runProgram hc, hl, hwf]
  exact runProgram_refused hs rfl rest

/-! ### Control codes -/

/-- The instruction of a control code is the write of that code to 0x5F (log entry 13). -/
theorem exec_of_decodeControl {b : Byte} {i : Instr} (h : decodeControl b = .ok i) (s : State) :
    exec i s = .next (modeWrite b s) := by
  have henc : encode i = .control b := encode_eq_control_iff.mpr h
  cases i with
  | eeLock | eeAuth | eeWrite | eeErase | eeRead =>
    cases henc
    rfl
  | _ => cases henc

/-- The one write of 0x5F, while the host side lists nothing (10_state R29, R30). -/
theorem modeWrite_of_host_nil (h : s.host = []) (code : Byte) :
    modeWrite code s = { s with
      hstat := { s.hstat with phase := if code = codeEeLock then .idle else .modeSet, lastmode := code }
      pos := s.pos + 1, trace := s.trace ++ [.busW s.hcfg.devaddr regEeControl code] } :=
  endTurn_of_host_nil h

/-- Settles O7: the state after the write of each code. -/
theorem controlCodesDriveMode : Obligations.ControlCodesDriveMode := by
  intro s h
  have hexec (b : Byte) {i : Instr} (hi : decodeControl b = .ok i) :=
    (exec_of_decodeControl hi s).trans (congrArg _ (modeWrite_of_host_nil h b))
  exact ⟨hexec 0x00 rfl, hexec 0x50 rfl, hexec 0x52 rfl, hexec 0x53 rfl, hexec 0x55 rfl⟩

/-- While the host side lists something, a line that advances is the whole turn. -/
theorem runOps_advance_host {op : MicroOp} {t : State} {rest : List MicroOp} (hop : op.perform s = .advance t)
    (ht : t.host ≠ []) : runOps (op :: rest) s = t.bump.endTurn := by
  simp [runOps, hop, ht]

/-- Settles O6: with a pass listed the turn is the one line at the sequencer's position. -/
theorem stepRunsControlCode : Obligations.StepRunsControlCode := by
  intro s rest v i hb hhost hline hi
  obtain ⟨hpos, hop⟩ := List.getElem?_eq_some_iff.mp hline
  rw [step_eq_sequencerTurn (.inr ⟨rest, hhost⟩), sequencerTurn_eq, if_pos hb, exec_of_decodeControl hi, runProgram,
    List.drop_eq_getElem_cons hpos, hop]
  exact congrArg _ (runOps_advance_host rfl (hhost ▸ List.cons_ne_nil _ _))

end

end Sys2Proof.Machine
end

section
/-! The codes OZEC writes to chip register 0x5F (30_encoding R91): every line that writes it, WRREG's aside, writes one
of the five. -/

namespace Sys2Proof.Machine

/-! ### The lines -/

/-- If the line writes 0x5F, it writes a control code (30_encoding R91). -/
def MicroOp.ModeOk : MicroOp → Prop
  | .busW reg v =>
    reg = regEeControl → ∀ s, v s ∈ [codeEeLock, codeEeAuth, codeEeWrite, codeEeErase, codeEeRead]
  | _ => True

/-- The request of such a line. -/
theorem MicroOp.ModeOk.request {op : MicroOp} (h : op.ModeOk) {u : State} {dev : BitVec 7} {v : Byte}
    (hq : op.request? u = some (.busW dev regEeControl v)) :
    v ∈ [codeEeLock, codeEeAuth, codeEeWrite, codeEeErase, codeEeRead] := by
  cases op with
  | busW reg value =>
    obtain ⟨-, hreg, rfl⟩ := Request.busW.inj (Option.some.inj hq)
    exact h hreg u
  | _ => cases hq

/-- Every line keeps to the control codes. -/
def ModesOk (ops : List MicroOp) : Prop := ∀ op ∈ ops, op.ModeOk

section
variable (op : MicroOp) (ops ops' : List MicroOp)

@[simp] theorem modesOk_nil : ModesOk [] := List.forall_mem_nil _
@[simp] theorem modesOk_cons : ModesOk (op :: ops) ↔ op.ModeOk ∧ ModesOk ops := List.forall_mem_cons
@[simp] theorem modesOk_append : ModesOk (ops ++ ops') ↔ ModesOk ops ∧ ModesOk ops' := List.forall_mem_append
@[simp] theorem modesOk_flatMap (l : List Nat) (f : Nat → List MicroOp) :
    ModesOk (l.flatMap f) ↔ ∀ k ∈ l, ModesOk (f k) := List.forall_mem_flatMap

@[simp] theorem modeOk_busW (reg : Byte) (v : State → Byte) : (MicroOp.busW reg v).ModeOk ↔
    (reg = regEeControl → ∀ s, v s ∈ [codeEeLock, codeEeAuth, codeEeWrite, codeEeErase, codeEeRead]) := Iff.rfl
@[simp] theorem modeOk_compute (f : State → Except ErrCode State) : (MicroOp.compute f).ModeOk := trivial
@[simp] theorem modeOk_poll : MicroOp.poll.ModeOk := trivial
@[simp] theorem modeOk_busR (reg : Byte) (store : Byte → State → State) : (MicroOp.busR reg store).ModeOk := trivial
@[simp] theorem modeOk_fileSize : MicroOp.fileSize.ModeOk := trivial
@[simp] theorem modeOk_fileRead (off n : Nat) : (MicroOp.fileRead off n).ModeOk := trivial
@[simp] theorem modeOk_fileWriteAll (bytes : State → List Byte) : (MicroOp.fileWriteAll bytes).ModeOk := trivial
@[simp] theorem modeOk_finish : MicroOp.finish.ModeOk := trivial
@[simp] theorem modeOk_act (f : State → State) : (act f).ModeOk := trivial
@[simp] theorem modeOk_require (p : State → Bool) (code : ErrCode) : (require p code).ModeOk := trivial

end

/-! ### The sub-procedures (41_eeprom R112-R115) and the parts of REWRITE (42_auth R132) -/

@[simp] theorem modesOk_waitOps : ModesOk waitOps := by simp [waitOps]

@[simp] theorem modesOk_waitWrite (reg : Byte) (v : State → Byte) :
    ModesOk (waitWrite reg v) ↔ (MicroOp.busW reg v).ModeOk := by
  simp [waitWrite]

@[simp] theorem modesOk_waitRead (reg : Byte) (store : Byte → State → State) : ModesOk (waitRead reg store) := by
  simp [waitRead]

@[simp] theorem modesOk_lockOps : ModesOk lockOps := by simp [lockOps]

section
variable (a : Byte) (store0 store1 : Byte → State → State)

@[simp] theorem modesOk_eeReadLive : ModesOk (eeReadLive a store0 store1) := by
  simp [eeReadLive]

@[simp] theorem modesOk_eeRead (subst : Substrate) : ModesOk (eeRead subst a store0 store1) := by
  cases subst with
  | liveDevice => exact modesOk_eeReadLive a store0 store1
  | fileImage => simp [eeRead, eeReadFile, requireImageSize]

@[simp] theorem modesOk_eeWrite (b0 b1 : State → Byte) : ModesOk (eeWrite a b0 b1) := by
  simp [eeWrite]

end

theorem modesOk_authOps : ModesOk authOps := by
  simp [authOps]

theorem modesOk_eraseOps : ModesOk eraseOps := by
  simp [eraseOps, rewriteWord, enterWord]

/-! ### The commands -/

/-- No line of a command other than WRREG writes anything but a control code to 0x5F. -/
theorem modesOk_linesOf {i : Instr} (hw : ∀ reg data, i ≠ .wrreg reg data) (subst : Substrate) :
    ModesOk (linesOf i subst) := by
  cases i with
  | wrreg reg data => exact absurd rfl (hw reg data)
  | rdreg | chipid | reboot | cellv =>
    simp [linesOf, rdregProgram, chipidProgram, rebootProgram, cellvProgram]
  | loadimg | saveimg =>
    simp [linesOf, loadimgProgram, saveimgProgram, requireImageSize, requireComplete]
  | adc2mv | v2adc | setrs | setvl | sext4 | decauth =>
    simp [linesOf, adc2mvProgram, v2adcProgram, setrsProgram, setvlProgram, sext4Program, decauthProgram]
  | rdword | rsense | limit | thresh | unpack | curr =>
    simp [linesOf, rdwordProgram, rsenseProgram, limitProgram, threshProgram, unpackProgram, currProgram]
  | wrword | lock => simp [linesOf, wrwordProgram, lockProgram]
  | rdimg => simp [linesOf, rdimgProgram, rdimgWord, enterWord, leaveLoop]
  | rewrite =>
    simp [linesOf, rewriteProgram, requireComplete, requirePasswordOk, leaveLoop, modesOk_authOps, modesOk_eraseOps]
  | eeLock | eeAuth | eeWrite | eeErase | eeRead => simp [linesOf]

/-! ### The statement -/

/-- Settles O57: the line that issues the write is one of the command CUR names; WRREG's writes its operands, any
other command's a control code, and an illegal word's line issues no request. -/
theorem onlyControlCodesReachChip : Obligations.OnlyControlCodesReachChip := by
  intro s t dev v h hmem
  obtain ⟨r, -, -, u, op, -, hop, hreq⟩ := step_request h hmem
  have hline := List.mem_of_getElem? hop
  cases hf : s.fetch with
  | error e =>
    rw [hf] at hline
    obtain rfl := List.mem_singleton.mp hline
    cases hreq
  | ok i =>
    rw [hf] at hline
    by_cases hw : ∃ reg data, i = .wrreg reg data
    · obtain ⟨reg, data, rfl⟩ := hw
      obtain ⟨rfl, rfl⟩ := wrreg_request hline hreq
      exact .inr rfl
    · have hother : ∀ reg data, i ≠ .wrreg reg data := fun reg data he => hw ⟨reg, data, he⟩
      exact .inl ((modesOk_linesOf hother _ op hline).request hreq)

end Sys2Proof.Machine
end

section
/-! The register commands RDREG, WRREG, CHIPID and REBOOT (40_bus R103-R108): where a prologue that lets the
command in and the read or write after it lead, then each command from there on. -/

namespace Sys2Proof.Machine

/-! ### PHASE and LASTMODE in one equation (10_state R29, R30) -/

/-- A register read changes PHASE at most. -/
theorem Hstat.afterRead_eq (h : Hstat) (reg : Byte) : h.afterRead reg = { h with
    phase := if reg = regEeDataLo ∨ reg = regEeDataHi then .wordRead else h.phase } := by
  unfold Hstat.afterRead
  split_ifs <;> rfl

/-- A register write changes LASTMODE and PHASE at most. -/
theorem Hstat.afterWrite_eq (h : Hstat) (reg v : Byte) : h.afterWrite reg v = { h with
    lastmode := if reg = regEeControl then v else h.lastmode
    phase := if reg = regEeControl then (if v = codeEeLock then .idle else .modeSet)
      else if reg = regEeAddr then .addressSet
      else if reg = regEeDataLo ∨ reg = regEeDataHi then .wordWrite else h.phase } := by
  unfold Hstat.afterWrite
  split_ifs <;> rfl

section
variable {s : State} {need : Need} {reg : Byte} {a : BusAnswer} {r : List BusAnswer} {ops : List MicroOp}

/-! ### The first lines on a ready live device -/

/-- The prologue lets a command in, and its second line follows (60_exceptions R171). -/
theorem runProgram_live (hs : s.atStartLive) :
    runProgram (.compute (prologue true need) :: ops) s = .next (runOps ops (s.setPos 1)) := by
  obtain ⟨⟨hpos, hhost⟩, hsubst, hready⟩ := hs
  rw [runProgram_atStart hpos, runOps_compute_ok (prologue_ok_live hsubst hready) hhost, State.bump, hpos]

/-- A read whose answer comes puts the byte into a temporary, and the next line follows (40_bus R103). -/
theorem runProgram_live_read (g : Byte → Temps → Temps) (hs : s.atStartLive) (hc : s.chipIn = a :: r)
    (ha : answered a = true) :
    runProgram (.compute (prologue true need) :: .busR reg (fun x t => t.setTmp (g x t.tmp)) :: ops) s =
      .next (runOps ops { s with
        hstat := s.hstat.afterRead reg, tmp := g a.data s.tmp, pos := 2, chipIn := r
        trace := s.trace ++ [.busR s.hcfg.devaddr reg] }) := by
  have ⟨⟨_, hhost⟩, _⟩ := hs
  have hread := busRead_of_cons (s := s.setPos 1) hc reg
  rw [runProgram_live hs, runOps_busR (s := s.setPos 1) (by rw [hread]; exact hhost) hc ha, hread]
  rfl

/-- A read without an acknowledge ends the command with TRANSPORT_NACK, PHASE updated all the same (40_bus R103). -/
theorem runProgram_live_read_nack {store : Byte → State → State} (hs : s.atStartLive) (hc : s.chipIn = a :: r)
    (ha : answered a = false) :
    runProgram (.compute (prologue true need) :: .busR reg store :: ops) s = .next { s with
      hstat := (s.hstat.afterRead reg).failed .transportNack, pos := 1, chipIn := r
      trace := s.trace ++ [.busR s.hcfg.devaddr reg] } := by
  have ⟨⟨_, hhost⟩, _⟩ := hs
  rw [runProgram_live hs, runOps_busR_nack (s := s.setPos 1) hhost hc ha, busRead_of_cons (s := s.setPos 1) hc]
  rfl

/-- A write asks for no acknowledge, and the next line follows (40_bus R104). -/
theorem runProgram_live_write (hs : s.atStartLive) (v : Byte) :
    runProgram (.compute (prologue true need) :: .busW reg (fun _ => v) :: ops) s =
      .next (runOps ops { s with
        hstat := s.hstat.afterWrite reg v, pos := 2, trace := s.trace ++ [.busW s.hcfg.devaddr reg v] }) := by
  have ⟨⟨_, hhost⟩, _⟩ := hs
  rw [runProgram_live hs, runOps_busW (s := s.setPos 1) hhost]
  rfl

/-! ### CHIPID's comparison (40_bus R107) -/

theorem checkChipId_expected (h : s.tmp.id = expectedChipId) : checkChipId s = .ok s := if_pos h

theorem checkChipId_forced (h : s.tmp.id ≠ expectedChipId) (hf : s.hcfg.force = true) :
    checkChipId s = .ok (s.setHstat s.hstat.warned) := by
  rw [checkChipId, if_neg h, if_pos hf]

theorem checkChipId_unknown (h : s.tmp.id ≠ expectedChipId) (hf : s.hcfg.force = false) :
    checkChipId s = .error .unknownChip := by
  rw [checkChipId, if_neg h, if_neg (Bool.eq_false_iff.mp hf)]

end

/-! ### The statements -/

/-- Settles O21: the read, then HRES0 and finish; without an acknowledge the read is the last line. -/
theorem rdregReturnsByte : Obligations.RdregReturnsByte := by
  intro s reg a rest hs hc
  have ⟨⟨_, hhost⟩, _⟩ := hs
  refine ⟨fun ha => ?_, fun ha => ?_⟩
  · refine (runProgram_live_read (fun x t => { t with d := x }) hs hc ha).trans (congrArg _ ?_)
    refine Eq.trans (runOps_act hhost) ?_
    refine Eq.trans (runOps_finish hhost) ?_
    rw [Hstat.afterRead_eq]
    rfl
  · refine (runProgram_live_read_nack hs hc ha).trans (congrArg _ ?_)
    rw [Hstat.afterRead_eq]
    rfl

/-- Settles O22: every line between the prologue and finish is one write. -/
theorem registerWriteCommands : Obligations.RegisterWriteCommands := by
  intro s hs
  have ⟨⟨_, hhost⟩, _⟩ := hs
  refine ⟨fun reg data => ?_, ?_⟩
  · refine (runProgram_live_write hs data).trans (congrArg _ ?_)
    refine Eq.trans (runOps_finish hhost) ?_
    rw [Hstat.afterWrite_eq]
    rfl
  · refine (runProgram_live_write hs 0x01).trans (congrArg _ ?_)
    refine Eq.trans (runOps_busW hhost) ?_
    rw [busWrite_eq]
    refine Eq.trans (runOps_finish hhost) ?_
    dsimp only [State.bump, State.setPos]
    rw [List.append_assoc]
    rfl

/-- Settles O23: after the read HRES0 takes the byte, and the comparison goes on, warns or refuses. -/
theorem chipidChecksIdentity : Obligations.ChipidChecksIdentity := by
  intro s a rest hs hc
  have ⟨⟨_, hhost⟩, _⟩ := hs
  refine ⟨fun ha => ?_, fun ha => runProgram_live_read_nack hs hc ha⟩
  refine (runProgram_live_read (fun x t => { t with id := x }) hs hc ha).trans (congrArg _ ?_)
  refine Eq.trans (runOps_act hhost) ?_
  by_cases hid : a.data = expectedChipId
  · refine Eq.trans (runOps_compute_ok (checkChipId_expected hid) hhost) ?_
    refine Eq.trans (runOps_finish hhost) ?_
    rw [if_pos hid, if_pos (.inl hid)]
    rfl
  · rw [if_neg hid]
    cases hf : s.hcfg.force with
    | false =>
      refine Eq.trans (runOps_compute_error (checkChipId_unknown hid hf) hhost) ?_
      rw [if_neg Bool.false_ne_true, if_neg (not_or.mpr ⟨hid, Bool.false_ne_true⟩)]
      rfl
    | true =>
      refine Eq.trans (runOps_compute_ok (checkChipId_forced hid hf) hhost) ?_
      refine Eq.trans (runOps_finish hhost) ?_
      rw [if_pos rfl, if_pos (.inr rfl)]
      rfl

end Sys2Proof.Machine
end

section
/-! The busy poll (41_eeprom R112): a step at a poll line polls again, ends the command, or moves on; and from there,
any number of busy polls. -/

namespace Sys2Proof.Machine

section
variable {s t : State} {a : BusAnswer} {l rest : List BusAnswer}

/-! ### A run of steps -/

section
variable {M : Host.Core} {u v : M.State}

/-- The first step of a run, when it is known. -/
theorem run_of_step (h : M.step u = .next v) (k : Nat) : M.run (k + 1) u = M.run k v := by
  simp only [Host.Core.run, h]

/-- A run of one step more is the run and then the step. -/
theorem run_succ_of_next {k : Nat} (h : M.run k u = .next v) : M.run (k + 1) u = M.step v := by
  induction k generalizing u with
  | zero =>
    cases h
    simp only [Host.Core.run]
    split <;> exact Eq.symm ‹_›
  | succ k ih =>
    cases hu : M.step u with
    | next w => exact (run_of_step hu (k + 1)).trans (ih ((run_of_step hu k).symm.trans h))
    | fault r => simp [Host.Core.run, hu] at h
    | refused r => simp [Host.Core.run, hu] at h

/-- A run is the same from a state whose first step is the same. -/
theorem run_congr (h : M.step u = M.step v) (k : Nat) : M.run (k + 1) u = M.run (k + 1) v := by
  simp only [Host.Core.run, h]

end

/-! ### At a poll line -/

/-- A running command stands at a poll, and the host side lists nothing. -/
structure State.AtPoll (s : State) : Prop where
  busy : s.hstat.busy = true
  host : s.host = []
  line : s.lines[s.pos]? = some .poll

theorem State.AtPoll.polled (h : s.AtPoll) : (s.polled a rest).AtPoll := ⟨h.busy, h.host, h.line⟩

/-- The step at a poll is the turn from it. -/
theorem State.AtPoll.step_eq (h : s.AtPoll) :
    step s = .next (runOps (.poll :: s.lines.drop (s.pos + 1)) s) := by
  obtain ⟨hpos, hop⟩ := List.getElem?_eq_some_iff.mp h.line
  rw [step_eq_sequencerTurn (.inl h.host), sequencerTurn_eq, if_pos h.busy, runProgram,
    List.drop_eq_getElem_cons hpos, hop]

/-- A busy poll below the bound, or with none, ends the step at the same line. -/
theorem State.AtPoll.step_busy (h : s.AtPoll) (hc : s.chipIn = a :: rest) (ha : busyPoll a)
    (hp : s.hpoll = 0 ∨ s.pollcnt + 1 ≠ s.hpoll) : step s = .next (s.polled a rest) := by
  have hop : MicroOp.poll.perform s = .again (s.polled a rest) :=
    (performPoll_busy hc ha).trans (if_neg (by tauto))
  rw [h.step_eq, runOps_again hop, endTurn_of_host_nil (s := s.polled a rest) h.host]

/-- The busy poll that meets the bound ends the command. -/
theorem State.AtPoll.step_timeout (h : s.AtPoll) (hc : s.chipIn = a :: rest) (ha : busyPoll a)
    (hp : s.hpoll ≠ 0) (hcnt : s.pollcnt + 1 = s.hpoll) :
    step s = .next ((s.polled a rest).raise .eepromTimeout) := by
  have hop : MicroOp.poll.perform s = .ended ((s.polled a rest).raise .eepromTimeout) :=
    (performPoll_busy hc ha).trans (if_pos ⟨hp, hcnt⟩)
  rw [h.step_eq, runOps_ended hop, endTurn_of_host_nil (s := (s.polled a rest).raise .eepromTimeout) h.host]

/-! ### Busy polls in a row -/

/-- t is s after busy polls that read the answers l: what they changed, counted and logged. -/
structure State.PolledTo (s t : State) (l rest : List BusAnswer) : Prop where
  frame : t = { s with
    pollcnt := t.pollcnt, tmp := { s.tmp with s := t.tmp.s }, chipIn := rest, trace := t.trace }
  pollcnt : t.pollcnt = s.pollcnt + BitVec.ofNat 32 l.length
  trace : t.trace = s.trace ++ List.replicate l.length (pollReq s.hcfg.devaddr)

theorem State.PolledTo.nil (h : s.chipIn = rest) : s.PolledTo s [] rest := by
  subst h
  exact ⟨rfl, by simp, by simp⟩

theorem State.PolledTo.cons (h : (s.polled a (l ++ rest)).PolledTo t l rest) : s.PolledTo t (a :: l) rest where
  frame := h.frame
  pollcnt := by
    rw [h.pollcnt, List.length_cons, Nat.add_comm, BitVec.ofNat_add, ← BitVec.add_assoc]
    rfl
  trace := by
    rw [h.trace, List.length_cons, List.replicate_succ, List.append_cons]
    rfl

theorem State.PolledTo.atPoll (h : s.PolledTo t l rest) (hs : s.AtPoll) : t.AtPoll := by
  rw [h.frame]
  exact ⟨hs.busy, hs.host, hs.line⟩

/-- Below the bound, or with none, each busy poll is one step and the command stays at its line. -/
theorem State.AtPoll.run_busy (hs : s.AtPoll) (hc : s.chipIn = l ++ rest) (hl : ∀ a ∈ l, busyPoll a)
    (hp : s.hpoll = 0 ∨ s.pollcnt.toNat + l.length < s.hpoll.toNat) :
    ∃ t, Host.Core.run core l.length s = .next t ∧ s.PolledTo t l rest := by
  induction l generalizing s with
  | nil => exact ⟨s, rfl, .nil hc⟩
  | cons a l ih =>
    rw [List.length_cons] at hp
    have hcnt : s.hpoll = 0 ∨ s.pollcnt + 1 ≠ s.hpoll := hp.imp_right fun h => by bv_omega
    have hstep := hs.step_busy hc (hl a List.mem_cons_self) hcnt
    have hleft : s.hpoll = 0 ∨ (s.pollcnt + 1).toNat + l.length < s.hpoll.toNat := hp.imp_right fun h => by bv_omega
    obtain ⟨t, hrun, ht⟩ := ih (s := s.polled a (l ++ rest)) hs.polled rfl
      (fun b hb => hl b (List.mem_cons_of_mem a hb)) hleft
    exact ⟨t, (run_of_step hstep l.length).trans hrun, ht.cons⟩

/-- The busy poll that meets the bound, after those before it. -/
theorem State.AtPoll.run_timeout (hs : s.AtPoll) (hc : s.chipIn = l ++ a :: rest) (hl : ∀ b ∈ l, busyPoll b)
    (ha : busyPoll a) (hp : s.hpoll ≠ 0) (hn : s.pollcnt.toNat + l.length + 1 = s.hpoll.toNat) :
    ∃ t, s.PolledTo t l (a :: rest) ∧
      Host.Core.run core (l.length + 1) s = .next ((t.polled a rest).raise .eepromTimeout) := by
  obtain ⟨t, hrun, ht⟩ := hs.run_busy hc hl (.inr (by omega))
  have hpoll : t.hpoll = s.hpoll := by rw [ht.frame]
  have hcnt : t.pollcnt + 1 = t.hpoll := by
    have hlast : s.pollcnt + BitVec.ofNat 32 l.length + 1 = s.hpoll := by bv_omega
    rw [ht.pollcnt, hpoll, hlast]
  refine ⟨t, ht, (run_succ_of_next hrun).trans ?_⟩
  exact (ht.atPoll hs).step_timeout (by rw [ht.frame]) ha (hpoll ▸ hp) hcnt

/-! ### Whatever the chip answers -/

/-- No line moves the sequencer by itself. -/
theorem perform_pos {f : Except DecodeError Instr} {subst : Substrate} {op : MicroOp} (hop : op ∈ linesFor f subst)
    (s : State) : (op.perform s).state.pos = s.pos := by
  rcases perform_cases op s with ⟨u, v, hreq, hcomp, h⟩ | ⟨u, hreq, h⟩ | ⟨u, hreq, h⟩ | ⟨u, code, hreq, -, h⟩ <;>
    rw [h] <;> have hpos : u.pos = s.pos := by rw [hreq.frame]
  · rcases hcomp with rfl | hcomp
    · exact hpos
    · exact (computes_pos hop hcomp).trans hpos
  · exact hpos
  · exact hpos
  · exact hpos

/-- A turn never moves the sequencer back. -/
theorem runOps_pos_le {f : Except DecodeError Instr} {subst : Substrate} (k : Nat) (s : State) :
    s.pos ≤ (runOps ((linesFor f subst).drop k) s).pos := by
  have hend : ∀ u : State, s.pos ≤ u.pos → s.pos ≤ u.endTurn.pos := fun u h => by
    obtain ⟨l, hl⟩ := endTurn_eq_setHost u
    rwa [hl]
  have hline : ∀ {k} {op : MicroOp} {u : State} {r : MicroResult}, (linesFor f subst)[k]? = some op →
      s.pos ≤ u.pos → op.perform u = r → s.pos ≤ r.state.pos := fun hop h hr => by
    rwa [← hr, perform_pos (List.mem_of_getElem? hop)]
  exact runOps_induction (P := fun _ u => s.pos ≤ u.pos) (Q := fun u => s.pos ≤ u.pos)
    (fun k op u t hop h ht => Nat.le_succ_of_le (hline hop h ht)) (fun k op u t hop h ht => hend t (hline hop h ht))
    (fun k op u t hop h ht => hend t (hline hop h ht)) (fun _ => hend) k s le_rfl

/-- A turn that raises an error leaves the machine idle (60_exceptions R172). -/
theorem raise_endTurn_busy (s : State) (code : ErrCode) : (s.raise code).endTurn.hstat.busy = false := by
  obtain ⟨l, hl⟩ := endTurn_eq_setHost (s.raise code)
  rw [hl]
  rfl

/-- A step at a poll moves on, completes the command, or counts a busy poll that does not meet the bound. -/
theorem State.AtPoll.step_cases (h : s.AtPoll) : ∃ t, step s = .next t ∧
    (s.pos < t.pos ∨ t.hstat.busy = false ∨
      (t.AtPoll ∧ t.pos = s.pos ∧ t.hpoll = s.hpoll ∧ t.pollcnt = s.pollcnt + 1 ∧
        (s.hpoll = 0 ∨ s.pollcnt + 1 ≠ s.hpoll))) := by
  refine ⟨_, h.step_eq, ?_⟩
  rcases perform_poll_cases s with ⟨-, hop⟩ | ⟨-, t, rfl, ⟨-, hop⟩ | ⟨-, -, -, hop⟩ | ⟨-, hp, hop⟩⟩
  · rw [runOps_ended hop]
    exact .inr (.inl (raise_endTurn_busy _ _))
  · left
    rw [runOps_advance hop (by rw [busRead_eq]; exact h.host), State.lines_eq]
    refine lt_of_lt_of_le (Nat.lt_succ_self s.pos) (le_of_eq_of_le ?_ (runOps_pos_le (s.pos + 1) _))
    rw [busRead_eq]
    rfl
  · rw [runOps_ended hop]
    exact .inr (.inl (raise_endTurn_busy _ _))
  · rw [runOps_again hop, endTurn_of_host_nil (by rw [busRead_eq]; exact h.host), busRead_eq]
    exact .inr (.inr ⟨⟨h.busy, h.host, h.line⟩, rfl, rfl, rfl, hp⟩)

/-- Below the bound, the command moves on or completes within as many steps as polls are left. -/
theorem State.AtPoll.run_ends (hs : s.AtPoll) {n : Nat} (hn : s.hpoll.toNat - s.pollcnt.toNat = n)
    (hcnt : s.pollcnt < s.hpoll) :
    ∃ k t, k ≤ n ∧ Host.Core.run core k s = .next t ∧ (s.pos < t.pos ∨ t.hstat.busy = false) := by
  induction n generalizing s with
  | zero => bv_omega
  | succ n ih =>
    obtain ⟨t, hstep, hmoves | hends | ⟨ht, hpos, hpoll, hpc, hp⟩⟩ := hs.step_cases
    · exact ⟨1, t, by omega, run_of_step hstep 0, .inl hmoves⟩
    · exact ⟨1, t, by omega, run_of_step hstep 0, .inr hends⟩
    · have hbelow : s.pollcnt + 1 < s.hpoll := by
        rcases hp with h0 | hne <;> bv_omega
      have hleft : t.hpoll.toNat - t.pollcnt.toNat = n := by
        rw [hpoll, hpc]
        bv_omega
      obtain ⟨k, u, hk, hrun, hu⟩ := ih ht hleft (by rw [hpoll, hpc]; exact hbelow)
      exact ⟨k + 1, u, by omega, (run_of_step hstep k).trans hrun, hpos ▸ hu⟩

/-! ### LOCK's poll -/

/-- LOCK's first step is the one from its poll with no poll counted (41_eeprom R112, R118). -/
theorem step_lock (hb : s.hstat.busy = true) (hf : s.fetch = .ok .lock) (hs : s.atStartLive) :
    ((s.setPos 2).setPollcnt 0).AtPoll ∧ step s = step ((s.setPos 2).setPollcnt 0) := by
  have ⟨⟨_, hhost⟩, _⟩ := hs
  have hlines : s.lines = lockProgram := by
    rw [State.lines_eq, hf]
    rfl
  have hpoll : ((s.setPos 2).setPollcnt 0).AtPoll := ⟨hb, hhost, congrArg (·[2]?) hlines⟩
  refine ⟨hpoll, ?_⟩
  rw [hpoll.step_eq, step_eq_sequencerTurn (.inl hhost), sequencerTurn_eq, if_pos hb, hlines]
  refine (runProgram_live hs).trans (congrArg _ ((runOps_act hhost).trans ?_))
  change _ = runOps (.poll :: s.lines.drop 3) _
  rw [hlines]
  rfl

end

/-! ### The statements -/

/-- Settles O24, by induction over the answers: each busy poll is one step back to the same line. -/
theorem unboundedPollNeverEnds : Obligations.UnboundedPollNeverEnds := by
  intro s l rest hb hhost hline hpoll hc hl
  obtain ⟨t, hrun, ht⟩ := State.AtPoll.run_busy ⟨hb, hhost, hline⟩ hc hl (.inl hpoll)
  exact ⟨t, hrun, by rw [ht.frame], by rw [ht.frame], by rw [ht.frame], ht.trace, ht.frame⟩

/-- Settles O25, by induction over the polls left: each busy one leaves one less. -/
theorem boundedPollEnds : Obligations.BoundedPollEnds :=
  fun _ hb hhost hline _ hcnt => State.AtPoll.run_ends ⟨hb, hhost, hline⟩ rfl hcnt

/-- Settles O26: the busy polls before the last stay at LOCK's poll, and the last meets the bound. -/
theorem lockTimesOutAfterBound : Obligations.LockTimesOutAfterBound := by
  intro s l rest hb hf hs hp hlen hc hl
  obtain rfl | ⟨l, a, rfl⟩ := List.eq_nil_or_concat' l
  · exact absurd (BitVec.eq_of_toNat_eq hlen.symm) hp
  · rw [List.length_append, List.length_singleton] at hlen ⊢
    rw [List.append_assoc] at hc
    obtain ⟨hpoll, hstep⟩ := step_lock hb hf hs
    obtain ⟨t, ht, hrun⟩ := hpoll.run_timeout hc (fun b hb => hl b (List.mem_append_left _ hb)) (hl a (by simp)) hp
      (by change 0 + l.length + 1 = s.hpoll.toNat; omega)
    refine ⟨_, (run_congr hstep l.length).trans hrun, ?_, ?_, rfl⟩
    · rw [ht.frame]
      rfl
    · change t.trace ++ [pollReq t.hcfg.devaddr] = _
      rw [ht.trace, ht.frame, List.replicate_succ', ← List.append_assoc]
      rfl

end Sys2Proof.Machine
end

section
/-! The EEPROM commands of one request or one word (41_eeprom R113-R118, R120, R121): LOCK, RDWORD, WRWORD, LOADIMG
and SAVEIMG, and the file requests RDWORD, RDIMG and LOADIMG begin with. -/

namespace Sys2Proof.Machine

section
variable {s : State} {ops rest : List MicroOp} {sz rd : FileAnswer} {r : List FileAnswer} {off n : Nat}

/-! ### The first line -/

/-- A first line that lets the command in and changes nothing leads to the second (60_exceptions R171). -/
theorem runProgram_admitted {f : State → Except ErrCode State} (hs : s.atStart) (hf : f s = .ok s) :
    runProgram (.compute f :: ops) s = .next (runOps ops (s.setPos 1)) := by
  obtain ⟨hpos, hhost⟩ := hs
  rw [runProgram_atStart hpos, runOps_compute_ok hf hhost, State.bump, hpos]

/-- The live device is ready if SUBST selects it, as a command for either substrate asks (60_exceptions R171). -/
abbrev State.substrateReady (s : State) : Prop := s.hcfg.subst = .liveDevice → s.busReady = true

/-- The file substrate needs no bus. -/
theorem substrateReady_of_file (h : s.hcfg.subst = .fileImage) : s.substrateReady := fun hlive =>
  absurd (hlive.symm.trans h) (by decide)

theorem prologue_ok_either (h : s.substrateReady) : prologue true .either s = .ok s := by
  cases hs : s.hcfg.subst with
  | liveDevice => exact prologue_ok_live hs (h hs)
  | fileImage => exact prologue_ok_file (by decide) hs

/-! ### FileSize, its check and FileRead (41_eeprom R114, R120) -/

/-- A file of the right size is read. -/
theorem runOps_fileImage (h : s.host = []) (hc : s.fileIn = sz :: rd :: r) (hsz : sz.ioerr = false)
    (hsize : sz.size = imageSize) (hrd : rd.ioerr = false) :
    runOps (.fileSize :: requireImageSize :: .fileRead off n :: rest) s = runOps rest { s with
      tmp := { s.tmp with n := imageSize, r := fileBytes rd n }, pos := s.pos + 3, fileIn := r
      trace := s.trace ++ [.fileSize, .fileRead off n] } := by
  refine Eq.trans (runOps_fileSize h hc hsz) ?_
  refine Eq.trans (runOps_require_ok (by simp [State.fileAnswered, hsize]) h) ?_
  refine Eq.trans (runOps_fileRead (a := rd) (r := r) h rfl hrd) ?_
  simp only [State.fileAnswered, State.bump, State.setPos, hsize, List.append_assoc]
  rfl

theorem perform_fileSize : MicroOp.fileSize.perform s =
    performFile .fileSize (fun a t => t.setTmp { t.tmp with n := a.size }) s := rfl

theorem perform_fileRead : (MicroOp.fileRead off n).perform s =
    performFile (.fileRead off n) (fun a t => t.setTmp { t.tmp with r := fileBytes a n }) s := rfl

theorem perform_fileWriteAll {bytes : State → List Byte} : (MicroOp.fileWriteAll bytes).perform s =
    performFile (.fileWriteAll (bytes s)) (fun _ t => t) s := rfl

/-- IOERR for a file request ends the command there. -/
theorem runOps_file_ioerr {op : MicroOp} {q : Request} {use : FileAnswer → State → State}
    (hop : op.perform s = performFile q use s) (h : s.host = []) (hc : s.fileIn = sz :: r) (hsz : sz.ioerr = true) :
    runOps (op :: rest) s = { s with
      hstat := s.hstat.failed .ioFailure, fileIn := r, trace := s.trace ++ [q] } := by
  rw [runOps_ended (hop.trans (performFile_ioerr hc hsz))]
  exact endTurn_of_host_nil h

/-- A file of another size is not read. -/
theorem runOps_wrongSize (h : s.host = []) (hc : s.fileIn = sz :: r) (hsz : sz.ioerr = false)
    (hsize : sz.size ≠ imageSize) :
    runOps (.fileSize :: requireImageSize :: rest) s = { s with
      hstat := s.hstat.failed .imageSizeMismatch, tmp := { s.tmp with n := sz.size }, pos := s.pos + 1, fileIn := r
      trace := s.trace ++ [.fileSize] } := by
  rw [runOps_fileSize h hc hsz]
  exact runOps_require_fails (beq_false_of_ne hsize) h

/-- IOERR for FileRead ends the command there. -/
theorem runOps_fileRead_ioerr (h : s.host = []) (hc : s.fileIn = sz :: rd :: r) (hsz : sz.ioerr = false)
    (hsize : sz.size = imageSize) (hrd : rd.ioerr = true) :
    runOps (.fileSize :: requireImageSize :: .fileRead off n :: rest) s = { s with
      hstat := s.hstat.failed .ioFailure, tmp := { s.tmp with n := imageSize }, pos := s.pos + 2, fileIn := r
      trace := s.trace ++ [.fileSize, .fileRead off n] } := by
  refine Eq.trans (runOps_fileSize h hc hsz) ?_
  refine Eq.trans (runOps_require_ok (by simp [State.fileAnswered, hsize]) h) ?_
  refine Eq.trans (runOps_file_ioerr perform_fileRead h rfl hrd) ?_
  simp only [State.fileAnswered, State.bump, State.setPos, hsize, List.append_assoc]
  rfl

/-! ### IMG as bytes -/

/-- Bytes of the temporaries go to IMG, and then HRES0 is set (41_eeprom R119, R120). -/
theorem runOps_store (a : Temps → Nat) (bytes : Temps → List Byte) (x : Temps → Word32) (h : s.host = []) :
    runOps (act (fun t => t.memWrite (a t.tmp) (bytes t.tmp)) :: act (fun t => t.setHres0 (x t.tmp)) :: rest) s =
      runOps rest { s with
        hres0 := x s.tmp, img := s.img.writeAll (a s.tmp) (bytes s.tmp), pos := s.pos + 2 } := by
  rw [runOps_act (by simpa [State.memWrite] using h), runOps_act (by simpa [State.memWrite, State.bump] using h)]
  rfl

/-- A complete IMG as the bytes SAVEIMG hands over. -/
theorem memRead_of_read {f : Nat → Byte} (h : ∀ j < n, s.img.read j = some (f j)) :
    s.memRead 0 n = (List.range n).map f :=
  List.map_congr_left fun j hj => by
    rw [Nat.zero_add]
    exact State.imgByte_of_read (h j (List.mem_range.mp hj))

/-- An invalid byte makes IMG incomplete. -/
theorem complete_of_invalid {m : Memory} {j : Nat} (hj : j < imageSize) (h : m.valid j = false) :
    m.complete = false :=
  List.all_eq_false.mpr ⟨j, List.mem_range.mpr hj, by simp [h]⟩

theorem fileBytes_length (a : FileAnswer) (n : Nat) : (fileBytes a n).length = n := by
  simp [fileBytes]

theorem fileBytes_getD (a : FileAnswer) {n j : Nat} (h : j < n) : (fileBytes a n).getD j 0 = a.data.getD j 0 := by
  simp [fileBytes, List.getD_eq_getElem?_getD, h]

end

/-! ### The statements -/

/-- Settles O27: Lock() is Wait() and the write of 0x00. -/
theorem lockReleases : Obligations.LockReleases := by
  intro s p rest hs hc hp
  have ⟨⟨_, hhost⟩, _⟩ := hs
  refine (runProgram_live hs).trans (congrArg _ ?_)
  refine Eq.trans (runOps_waitWrite hhost hc hp rfl) ?_
  exact runOps_finish hhost

/-- RDWORD goes on with EeRead on the current substrate. -/
theorem exec_rdword {s : State} {ea : Byte} (hea : eaddrOk ea = true) (hs : s.atStart) (hready : s.substrateReady) :
    exec (.rdword ea) s = .next (runOps (rdwordProgram s.hcfg.subst ea).tail (s.setPos 1)) := by
  change runProgram (rdwordProgram s.hcfg.subst ea) s = _
  rw [rdwordProgram, hea]
  exact runProgram_admitted hs (prologue_ok_either hready)

/-- Settles O28: EeRead on each substrate, then HRES0 and finish; each file error ends it at its line. -/
theorem rdwordReadsWord : Obligations.RdwordReadsWord := by
  intro s ea hea
  have hfile (hs : s.atStartFile) : exec (.rdword ea) s =
      .next (runOps (rdwordProgram .fileImage ea).tail (s.setPos 1)) := by
    obtain ⟨hstart, hsubst⟩ := hs
    rw [exec_rdword hea hstart (substrateReady_of_file hsubst), hsubst]
  refine ⟨fun w rest hs hc hw => ?_, fun f rest hs hc hf => ?_,
    fun sz rest hs hc => ⟨fun hsz => ?_, fun hsz hsize => ?_⟩, fun sz rd rest hs hc hsz hsize hrd => ?_⟩
  · obtain ⟨hstart, hsubst, hready⟩ := hs
    have ⟨_, hhost⟩ := hstart
    rw [exec_rdword hea hstart fun _ => hready, hsubst]
    refine congrArg _ ?_
    refine Eq.trans (runOps_eeReadLive (g0 := fun x t => { t with b0 := x }) (g1 := fun x t => { t with b1 := x })
      hhost hc hw) ?_
    refine Eq.trans (runOps_act hhost) ?_
    exact runOps_finish hhost
  · have ⟨⟨_, hhost⟩, _⟩ := hs
    refine (hfile hs).trans (congrArg _ ?_)
    refine Eq.trans (runOps_eeReadFile (g0 := fun x t => { t with b0 := x }) (g1 := fun x t => { t with b1 := x })
      hhost hc hf) ?_
    refine Eq.trans (runOps_act hhost) ?_
    exact runOps_finish hhost
  · have ⟨⟨_, hhost⟩, _⟩ := hs
    exact (hfile hs).trans (congrArg _ (runOps_file_ioerr perform_fileSize hhost hc hsz))
  · have ⟨⟨_, hhost⟩, _⟩ := hs
    exact (hfile hs).trans (congrArg _ (runOps_wrongSize hhost hc hsz hsize))
  · have ⟨⟨_, hhost⟩, _⟩ := hs
    exact (hfile hs).trans (congrArg _ (runOps_fileRead_ioerr hhost hc hsz hsize hrd))

/-- Settles O30: EeWrite, then finish. -/
theorem wrwordWritesWord : Obligations.WrwordWritesWord := by
  intro s ea b0 b1 p rest hs hea hc hp
  have ⟨⟨_, hhost⟩, _⟩ := hs
  change runProgram (wrwordProgram ea b0 b1) s = _
  rw [wrwordProgram, hea, runProgram_live hs]
  refine congrArg _ ?_
  refine Eq.trans (runOps_eeWrite hhost hc hp (fun _ _ _ => rfl) (fun _ _ _ => rfl)) ?_
  exact runOps_finish hhost

/-- Settles O34: only past both checks does IMG take the 128 bytes. -/
theorem loadimgFillsImage : Obligations.LoadimgFillsImage := by
  intro s sz rd rest hs hc
  have ⟨_, hhost⟩ := hs
  have hexec : exec .loadimg s = .next (runOps loadimgProgram.tail (s.setPos 1)) :=
    runProgram_admitted hs prologue_ok_none
  refine ⟨fun hsz hsize hrd => ?_, fun hsz => ?_, fun hsz hsize => ?_, fun hsz hsize hrd => ?_⟩
  · have hread (j : Nat) := Memory.read_writeAll (fileBytes rd imageSize) s.img 0 j (by simp [fileBytes_length])
    simp only [fileBytes_length, Nat.zero_add, Nat.zero_le, true_and, Nat.sub_zero] at hread
    refine ⟨s.img.writeAll 0 (fileBytes rd imageSize), hexec.trans (congrArg _ ?_), fun j hj => ?_, fun j hj => ?_⟩
    · refine Eq.trans (runOps_fileImage hhost hc hsz hsize hrd) ?_
      refine Eq.trans (runOps_store (fun _ => 0) (fun t => t.r) (fun _ => hresNat imageSize) hhost) ?_
      refine (runOps_finish (by exact hhost)).trans ?_
      dsimp only [State.finish, State.setHstat, State.setPos]
      rfl
    · rw [hread, if_pos hj, fileBytes_getD rd hj]
    · rw [hread, if_neg (Nat.not_lt.mpr hj)]
  · exact hexec.trans (congrArg _ (runOps_file_ioerr perform_fileSize hhost hc hsz))
  · exact hexec.trans (congrArg _ (runOps_wrongSize hhost hc hsz hsize))
  · exact hexec.trans (congrArg _ (runOps_fileRead_ioerr hhost hc hsz hsize hrd))

/-- Settles O35: the one request, and HRES0 only after a good answer. -/
theorem saveimgWritesWholeImage : Obligations.SaveimgWritesWholeImage := by
  intro s f a rest hs himg hc
  have ⟨_, hhost⟩ := hs
  have hcomplete : s.img.complete = true := (Memory.complete_iff _).mpr fun j hj => ⟨f j, himg j hj⟩
  have hbytes : s.memRead 0 imageSize = (List.range 128).map f := memRead_of_read himg
  refine (runProgram_admitted hs prologue_ok_none).trans (congrArg _ ?_)
  refine Eq.trans (runOps_require_ok hcomplete hhost) ?_
  rw [← hbytes]
  cases ha : a.ioerr with
  | true =>
    exact runOps_file_ioerr perform_fileWriteAll hhost hc ha
  | false =>
    refine Eq.trans (runOps_fileWriteAll hhost hc ha) ?_
    refine Eq.trans (runOps_act hhost) ?_
    exact runOps_finish hhost

/-- Settles O36: the line after the prologue refuses an incomplete IMG. -/
theorem incompleteImageRefused : Obligations.IncompleteImageRefused := by
  intro s j hj hvalid
  have hcomplete : s.img.complete = false := complete_of_invalid hj hvalid
  refine ⟨fun hs => ?_, fun hs => ?_⟩
  · have ⟨_, hhost⟩ := hs
    exact (runProgram_admitted hs prologue_ok_none).trans (congrArg _ (runOps_require_fails hcomplete hhost))
  · have ⟨⟨_, hhost⟩, _⟩ := hs
    exact (runProgram_live hs).trans (congrArg _ (runOps_require_fails hcomplete hhost))

end Sys2Proof.Machine
end

section
/-! RDIMG (41_eeprom R119): the words one after the other, on either substrate, and an error in the middle. -/

namespace Sys2Proof.Machine

/-! ### One EeRead on either substrate (41_eeprom R114) -/

/-- One EeRead that succeeds: what the ports answer, the bytes it gives and the requests it issues. -/
structure WordRead where
  bus : List BusAnswer
  file : List FileAnswer
  b0 : Byte
  b1 : Byte
  reqs : List Request

/-- The EeRead of the live device at an address. -/
def WordAnswers.read (w : WordAnswers) (dev : BitVec 7) (a : Byte) : WordRead where
  bus := w.list
  file := []
  b0 := w.lo.data
  b1 := w.hi.data
  reqs := eeReadReqs dev a

/-- The EeRead of the file substrate at an address. -/
def FileWord.read (f : FileWord) (a : Byte) : WordRead where
  bus := []
  file := f.list
  b0 := f.b0
  b1 := f.b1
  reqs := eeFileReqs a

/-- HSTAT after an EeRead: the live device is left locked (10_state R29, R30). -/
def Hstat.afterWord (h : Hstat) : Substrate → Hstat
  | .liveDevice => { h with phase := .idle, lastmode := codeEeLock }
  | .fileImage => h

theorem Hstat.afterWord_afterWord (h : Hstat) (subst : Substrate) :
    (h.afterWord subst).afterWord subst = h.afterWord subst := by
  cases subst <;> rfl

/-- The lines lead from s to t: whatever follows them goes on from t. -/
def Reaches (ops : List MicroOp) (s t : State) : Prop := ∀ rest, runOps (ops ++ rest) s = runOps rest t

theorem Reaches.append {ops ops' : List MicroOp} {s t u : State} (h : Reaches ops s t) (h' : Reaches ops' t u) :
    Reaches (ops ++ ops') s u := fun rest => by
  rw [List.append_assoc, h, h']

/-- u is s after the EeRead x into b0 and b1. -/
structure State.ReadsWord (s u : State) (subst : Substrate) (x : WordRead) : Prop where
  frame : u = { s with
    hstat := s.hstat.afterWord subst, pos := u.pos, pollcnt := u.pollcnt, tmp := u.tmp, chipIn := u.chipIn
    fileIn := u.fileIn, trace := s.trace ++ x.reqs }
  chipIn : s.chipIn = x.bus ++ u.chipIn
  fileIn : s.fileIn = x.file ++ u.fileIn
  a : u.tmp.a = s.tmp.a
  b0 : u.tmp.b0 = x.b0
  b1 : u.tmp.b1 = x.b1

/-- Where the ports answer x k, the EeRead of word k succeeds, for each of the first n words. -/
def ReadsAll (subst : Substrate) (c : Hcfg) (n : Nat) (x : Nat → WordRead) : Prop :=
  ∀ k < n, ∀ t : State, t.host = [] → t.hcfg = c → (x k).bus <+: t.chipIn → (x k).file <+: t.fileIn →
    ∃ u, Reaches (eeRead subst (wordAddr k) storeB0 storeB1) t u ∧ t.ReadsWord u subst (x k)

theorem readsAll_live {c : Hcfg} {n : Nat} {w : Nat → WordAnswers} (hw : ∀ k < n, (w k).good) :
    ReadsAll .liveDevice c n fun k => (w k).read c.devaddr (wordAddr k) := by
  rintro k hk t h rfl ⟨r, hr⟩ -
  exact ⟨_, fun rest => runOps_eeReadLive (g0 := fun x t => { t with b0 := x }) (g1 := fun x t => { t with b1 := x })
    h hr.symm (hw k hk), rfl, hr.symm, rfl, rfl, rfl, rfl⟩

theorem readsAll_file {c : Hcfg} {n : Nat} {f : Nat → FileWord} (hf : ∀ k < n, (f k).good) :
    ReadsAll .fileImage c n fun k => (f k).read (wordAddr k) := by
  rintro k hk t h - - ⟨r, hr⟩
  exact ⟨_, fun rest => runOps_eeReadFile (g0 := fun x t => { t with b0 := x }) (g1 := fun x t => { t with b1 := x })
    h hr.symm (hf k hk), rfl, rfl, hr.symm, rfl, rfl, rfl⟩

/-! ### One round of the loop -/

theorem wordAddr_toNat {k : Nat} (h : k < wordCount) : (wordAddr k).toNat = 2 * k := by
  rw [wordAddr, BitVec.toNat_ofNat, Nat.mod_eq_of_lt]
  exact lt_of_lt_of_le (Nat.mul_lt_mul_of_pos_left h Nat.two_pos) (by decide)

/-- u is s after round k of the loop, which stored the word x. -/
structure State.StoresWord (s u : State) (subst : Substrate) (k : Nat) (x : WordRead) : Prop where
  frame : u = { s with
    hres0 := hresNat (2 * k + 2), hstat := s.hstat.afterWord subst, img := s.img.writeAll (2 * k) [x.b0, x.b1]
    pos := u.pos, pollcnt := u.pollcnt, widx := u.widx, tmp := u.tmp, chipIn := u.chipIn, fileIn := u.fileIn
    trace := s.trace ++ x.reqs }
  chipIn : s.chipIn = x.bus ++ u.chipIn
  fileIn : s.fileIn = x.file ++ u.fileIn

/-- Where the loop's EeRead of word k begins. -/
def State.entered (s : State) (k : Nat) : State := (storeA (wordAddr k) (s.setWidx (BitVec.ofNat 7 k))).bump

theorem reaches_enterWord {s : State} (h : s.host = []) (k : Nat) : Reaches [enterWord k] s (s.entered k) :=
  fun _ => runOps_act h

theorem reaches_storeWord {s : State} (h : s.host = []) :
    Reaches [act fun t => t.memWrite t.tmp.a.toNat [t.tmp.b0, t.tmp.b1],
      act fun t => t.setHres0 (hresNat (t.tmp.a.toNat + 2))] s { s with
        hres0 := hresNat (s.tmp.a.toNat + 2), img := s.img.writeAll s.tmp.a.toNat [s.tmp.b0, s.tmp.b1]
        pos := s.pos + 2 } :=
  fun _ => runOps_store (fun t => t.a.toNat) (fun t => [t.b0, t.b1]) (fun t => hresNat (t.a.toNat + 2)) h

/-- A round is an EeRead, MemWrite and HRES0. -/
theorem reaches_rdimgWord {s : State} {subst : Substrate} {n k : Nat} {x : Nat → WordRead}
    (hx : ReadsAll subst s.hcfg n x) (hk : k < n) (hn : n ≤ wordCount) (h : s.host = [])
    (hc : (x k).bus <+: s.chipIn) (hf : (x k).file <+: s.fileIn) :
    ∃ u, Reaches (rdimgWord subst k) s u ∧ s.StoresWord u subst k (x k) := by
  obtain ⟨v, hv, hread⟩ := hx k hk (s.entered k) h rfl hc hf
  have ha : v.tmp.a.toNat = 2 * k := by
    rw [hread.a]
    exact wordAddr_toNat (hk.trans_le hn)
  refine ⟨_, (reaches_enterWord h k).append (hv.append (reaches_storeWord (by rw [hread.frame]; exact h))), ?_,
    hread.chipIn, hread.fileIn⟩
  rw [ha, hread.b0, hread.b1, hread.frame]
  rfl

/-! ### The first n rounds -/

/-- t is s after the rounds below n, which stored the words x. -/
structure State.StoresWords (s t : State) (subst : Substrate) (n : Nat) (x : Nat → WordRead) : Prop where
  frame : t = { s with
    hres0 := t.hres0, hstat := t.hstat, img := t.img, pos := t.pos, pollcnt := t.pollcnt, widx := t.widx, tmp := t.tmp
    chipIn := t.chipIn, fileIn := t.fileIn, trace := s.trace ++ (List.range n).flatMap fun k => (x k).reqs }
  chipIn : s.chipIn = ((List.range n).flatMap fun k => (x k).bus) ++ t.chipIn
  fileIn : s.fileIn = ((List.range n).flatMap fun k => (x k).file) ++ t.fileIn
  hres0 : t.hres0 = if n = 0 then s.hres0 else hresNat (2 * n)
  hstat : t.hstat = if n = 0 then s.hstat else s.hstat.afterWord subst
  words : ∀ k < n, t.img.read (2 * k) = some (x k).b0 ∧ t.img.read (2 * k + 1) = some (x k).b1
  beyond : ∀ i, 2 * n ≤ i → t.img.read i = s.img.read i

theorem flatMap_range_succ {α : Type} (f : Nat → List α) (n : Nat) :
    (List.range (n + 1)).flatMap f = (List.range n).flatMap f ++ f n := by
  rw [List.range_succ, List.flatMap_append, List.flatMap_singleton]

section
variable {s t u : State} {subst : Substrate} {n : Nat} {x : Nat → WordRead}

theorem State.StoresWords.zero : s.StoresWords s subst 0 x where
  frame := by simp
  chipIn := rfl
  fileIn := rfl
  hres0 := rfl
  hstat := rfl
  words k hk := absurd hk (Nat.not_lt_zero k)
  beyond _ _ := rfl

/-- A byte after round n: one of its two, or what it was. -/
theorem State.StoresWord.read {y : WordRead} (h : t.StoresWord u subst n y) (hn : n < wordCount) (i : Nat) :
    u.img.read i = if i = 2 * n + 1 then some y.b1 else if i = 2 * n then some y.b0 else t.img.read i := by
  have hsize : 2 * n + 1 < imageSize := by
    change 2 * n + 1 < 128
    change n < 64 at hn
    omega
  rw [h.frame]
  change ((t.img.write (2 * n) y.b0).write (2 * n + 1) y.b1).read i = _
  rw [Memory.read_write _ _ _ hsize, Memory.read_write _ _ _ (Nat.lt_of_succ_lt hsize)]

/-- One round more. -/
theorem State.StoresWords.succ (h : s.StoresWords t subst n x) (h' : t.StoresWord u subst n (x n))
    (hn : n < wordCount) : s.StoresWords u subst (n + 1) x where
  frame := by
    rw [flatMap_range_succ, ← List.append_assoc, h'.frame, h.frame]
  chipIn := by rw [flatMap_range_succ, List.append_assoc, ← h'.chipIn, ← h.chipIn]
  fileIn := by rw [flatMap_range_succ, List.append_assoc, ← h'.fileIn, ← h.fileIn]
  hres0 := by
    rw [h'.frame]
    rfl
  hstat := by
    rw [h'.frame]
    change t.hstat.afterWord subst = s.hstat.afterWord subst
    rw [h.hstat]
    split
    · rfl
    · exact s.hstat.afterWord_afterWord subst
  words k hk := by
    rw [h'.read hn, h'.read hn]
    rcases Nat.lt_succ_iff_lt_or_eq.mp hk with hlt | rfl
    · rw [if_neg (by omega), if_neg (by omega), if_neg (by omega), if_neg (by omega)]
      exact h.words k hlt
    · simp
  beyond i hi := by
    rw [h'.read hn, if_neg (by omega), if_neg (by omega)]
    exact h.beyond i (by omega)

/-- The loop up to word n, by induction on n. -/
theorem reaches_rdimgWords (hx : ReadsAll subst s.hcfg n x) (hn : n ≤ wordCount) (h : s.host = [])
    (hc : ((List.range n).flatMap fun k => (x k).bus) <+: s.chipIn)
    (hf : ((List.range n).flatMap fun k => (x k).file) <+: s.fileIn) :
    ∃ t, Reaches ((List.range n).flatMap (rdimgWord subst)) s t ∧ s.StoresWords t subst n x := by
  induction n with
  | zero => exact ⟨s, fun _ => rfl, .zero⟩
  | succ n ih =>
    rw [flatMap_range_succ] at hc hf
    obtain ⟨t, ht, hst⟩ := ih (fun k hk => hx k (hk.trans (Nat.lt_succ_self n))) (Nat.le_of_succ_le hn)
      ((List.prefix_append _ _).trans hc) ((List.prefix_append _ _).trans hf)
    rw [hst.chipIn, List.prefix_append_right_inj] at hc
    rw [hst.fileIn, List.prefix_append_right_inj] at hf
    obtain ⟨u, hu, htu⟩ := reaches_rdimgWord (s := t) (by rw [hst.frame]; exact hx) (Nat.lt_succ_self n) hn
      (by rw [hst.frame]; exact h) hc hf
    rw [flatMap_range_succ]
    exact ⟨u, ht.append hu, hst.succ htu hn⟩

end

end Sys2Proof.Machine
end

section
/-! An EeRead that fails (41_eeprom R112, R114, 60_exceptions R172), and the statements on RDIMG. -/

namespace Sys2Proof.Machine

section
variable {s t u : State} {code : ErrCode} {k m : Nat} {rest : List MicroOp} {a b : BusAnswer} {r : List BusAnswer}

/-! ### A command that ends with an error -/

/-- u is s once m more requests were issued and the command ended with the error, the results as they were. -/
structure State.FailsTo (s u : State) (code : ErrCode) (m : Nat) : Prop where
  hstat : ∃ h : Hstat, u.hstat = h.failed code
  hres0 : u.hres0 = s.hres0
  img : u.img = s.img
  requests : u.trace.length = s.trace.length + m

/-- Lines that issue k requests and change no result may come before. -/
theorem State.FailsTo.after (h : t.FailsTo u code m) (hres0 : t.hres0 = s.hres0) (himg : t.img = s.img)
    (hreq : t.trace.length = s.trace.length + k) : s.FailsTo u code (m + k) where
  hstat := h.hstat
  hres0 := h.hres0.trans hres0
  img := h.img.trans himg
  requests := by
    rw [h.requests, hreq]
    omega

/-! ### On the live device -/

/-- The error of a read that fails: no acknowledge, or a busy poll that meets the bound (41_eeprom R112). -/
def readError (a : BusAnswer) : ErrCode := if answered a = true then .eepromTimeout else .transportNack

theorem readError_nack (h : answered a = false) : readError a = .transportNack := by
  simp [readError, h]

theorem performPoll_nack (hc : s.chipIn = a :: r) (ha : answered a = false) :
    performPoll s = .ended ((s.busRead regEeControl).raise .transportNack) := by
  simp [performPoll, nextBus_of_cons hc, ha]

/-- `Wait()` whose first poll has no acknowledge, or reads busy under HPOLL 1. -/
theorem wait_fails (h : s.host = []) (hc : s.chipIn = b :: r)
    (hb : answered b = false ∨ (s.hpoll = 1 ∧ busyPoll b)) :
    s.FailsTo (runOps (waitOps ++ rest) s) (readError b) 1 := by
  rw [waitOps, List.cons_append, runOps_act (by simpa using h), List.singleton_append]
  rcases hb with hnack | ⟨hpoll, hbusy⟩
  · rw [runOps_ended (op := .poll) (performPoll_nack (s := (s.setPollcnt 0).bump) hc hnack), readError_nack hnack,
      busRead_of_cons (s := (s.setPollcnt 0).bump) hc, endTurn_of_host_nil (by exact h)]
    exact ⟨⟨_, rfl⟩, rfl, rfl, List.length_append⟩
  · have hbound : s.hpoll ≠ 0 ∧ (0 : Word32) + 1 = s.hpoll := by
      rw [hpoll]
      decide
    rw [runOps_ended (op := .poll) ((performPoll_busy (s := (s.setPollcnt 0).bump) hc hbusy).trans (if_pos hbound)),
      readError, if_pos hbusy.1, endTurn_of_host_nil (by exact h)]
    exact ⟨⟨_, rfl⟩, rfl, rfl, List.length_append⟩

/-- `Wait(); BusW(reg, v)` whose poll fails. -/
theorem waitWrite_fails {reg : Byte} {v : State → Byte} (h : s.host = []) (hc : s.chipIn = b :: r)
    (hb : answered b = false ∨ (s.hpoll = 1 ∧ busyPoll b)) :
    s.FailsTo (runOps (waitWrite reg v ++ rest) s) (readError b) 1 := by
  rw [waitWrite, List.append_assoc]
  exact wait_fails h hc hb

/-- `Wait(); x <- BusR(reg)` whose poll fails. -/
theorem waitRead_poll_fails {reg : Byte} {store : Byte → State → State} (h : s.host = []) (hc : s.chipIn = b :: r)
    (hb : answered b = false ∨ (s.hpoll = 1 ∧ busyPoll b)) :
    s.FailsTo (runOps (waitRead reg store ++ rest) s) (readError b) 1 := by
  rw [waitRead, List.append_assoc]
  exact wait_fails h hc hb

/-- `Wait(); x <- BusR(reg)` whose read has no acknowledge. -/
theorem waitRead_fails {reg : Byte} {store : Byte → State → State} (h : s.host = []) (hc : s.chipIn = a :: b :: r)
    (ha : quiet a) (hb : answered b = false) :
    s.FailsTo (runOps (waitRead reg store ++ rest) s) (readError b) 2 := by
  rw [waitRead, List.append_assoc, runOps_wait h hc ha, List.singleton_append, readError_nack hb,
    runOps_busR_nack (s := s.waited a (b :: r)) h rfl hb, busRead_of_cons (s := s.waited a (b :: r)) rfl]
  exact ⟨⟨_, rfl⟩, rfl, rfl, by simp [State.raise, State.waited]⟩

/-- An error after `Wait(); BusW(reg, v)`. -/
theorem State.FailsTo.after_waitWrite {reg x : Byte} {v : State → Byte}
    (hu : (s.waitWritten reg x a r).FailsTo (runOps rest (s.waitWritten reg x a r)) code m) (h : s.host = [])
    (hc : s.chipIn = a :: r) (ha : quiet a) (hx : v (s.waited a r) = x) :
    s.FailsTo (runOps (waitWrite reg v ++ rest) s) code (m + 2) := by
  rw [runOps_waitWrite h hc ha hx]
  exact hu.after rfl rfl List.length_append

/-- An error after `Wait(); x <- BusR(reg)`. -/
theorem State.FailsTo.after_waitRead {reg : Byte} {g : Byte → Temps → Temps}
    (hu : (s.waitGot reg g a b r).FailsTo (runOps rest (s.waitGot reg g a b r)) code m) (h : s.host = [])
    (hc : s.chipIn = a :: b :: r) (ha : quiet a) (hb : answered b = true) :
    s.FailsTo (runOps (waitRead reg (fun x t => t.setTmp (g x t.tmp)) ++ rest) s) code (m + 2) := by
  rw [runOps_waitRead h hc ha hb]
  exact hu.after rfl rfl List.length_append

/-- EeRead whose read j fails, after j good ones. -/
theorem eeReadLive_fails {ea : Byte} {g0 g1 : Byte → Temps → Temps} {w : WordAnswers} {j : Nat} (hj : j < 7)
    (h : s.host = []) (hc : s.chipIn = w.list.take j ++ b :: r) (hw : w.good)
    (hb : answered b = false ∨ (s.hpoll = 1 ∧ busyPoll b ∧ j ∈ [0, 1, 2, 4, 6])) :
    s.FailsTo
      (runOps (eeReadLive ea (fun x t => t.setTmp (g0 x t.tmp)) (fun x t => t.setTmp (g1 x t.tmp)) ++ rest) s)
      (readError b) ([1, 3, 5, 6, 7, 8, 9].getD j 0) := by
  obtain ⟨h1, h2, h3, hh, h4, hl, -⟩ := hw
  have hpoll : answered b = false ∨ (s.hpoll = 1 ∧ busyPoll b) := hb.imp_right fun ⟨hp, hbusy, _⟩ => ⟨hp, hbusy⟩
  simp only [eeReadLive, lockOps, List.append_assoc]
  interval_cases j
  · exact waitWrite_fails h hc hpoll
  · exact .after_waitWrite (waitWrite_fails h rfl hpoll) h hc h1 rfl
  · exact .after_waitWrite (.after_waitWrite (waitRead_poll_fails h rfl hpoll) h rfl h2 rfl) h hc h1 rfl
  · exact .after_waitWrite (.after_waitWrite (waitRead_fails h rfl h3 (hb.resolve_right (by simp))) h rfl h2 rfl)
      h hc h1 rfl
  · exact .after_waitWrite (.after_waitWrite (.after_waitRead (waitRead_poll_fails h rfl hpoll) h rfl h3 hh)
      h rfl h2 rfl) h hc h1 rfl
  · exact .after_waitWrite (.after_waitWrite (.after_waitRead (waitRead_fails h rfl h4 (hb.resolve_right (by simp)))
      h rfl h3 hh) h rfl h2 rfl) h hc h1 rfl
  · exact .after_waitWrite (.after_waitWrite (.after_waitRead (.after_waitRead (waitWrite_fails h rfl hpoll)
      h rfl h4 hl) h rfl h3 hh) h rfl h2 rfl) h hc h1 rfl

/-! ### On the file substrate -/

/-- EeRead whose FileSize or FileRead fails, or whose file has another size. -/
theorem eeReadFile_fails {ea : Byte} {store0 store1 : Byte → State → State} {sz rd : FileAnswer}
    {q : List FileAnswer} (h : s.host = []) (hc : s.fileIn = sz :: rd :: q)
    (hbad : sz.ioerr = true ∨ sz.size ≠ 128 ∨ rd.ioerr = true) :
    s.FailsTo (runOps (eeReadFile ea store0 store1 ++ rest) s)
      (if sz.ioerr = false ∧ sz.size ≠ 128 then .imageSizeMismatch else .ioFailure)
      (if sz.ioerr = false ∧ sz.size = 128 then 2 else 1) := by
  simp only [eeReadFile, List.cons_append, List.nil_append]
  cases hsz : sz.ioerr with
  | true =>
    rw [runOps_file_ioerr perform_fileSize h hc hsz, if_neg (by simp), if_neg (by simp)]
    exact ⟨⟨_, rfl⟩, rfl, rfl, List.length_append⟩
  | false =>
    by_cases hsize : sz.size = 128
    · have hrd : rd.ioerr = true := by simpa [hsz, hsize] using hbad
      rw [runOps_fileRead_ioerr h hc hsz hsize hrd, if_neg (by simp [hsize]), if_pos ⟨rfl, hsize⟩]
      exact ⟨⟨_, rfl⟩, rfl, rfl, List.length_append⟩
    · rw [runOps_wrongSize h hc hsz hsize, if_pos ⟨rfl, hsize⟩, if_neg (by simp [hsize])]
      exact ⟨⟨_, rfl⟩, rfl, rfl, List.length_append⟩

end

/-! ### The command -/

/-- Answers the substrate's words do not take. -/
theorem nothing_append {α : Type} (n : Nat) (l : List α) : ((List.range n).flatMap fun _ => []) ++ l = l := by
  rw [List.flatMap_eq_nil_iff.mpr fun _ _ => rfl, List.nil_append]

theorem nothing_prefix {α : Type} (n : Nat) (l : List α) : ((List.range n).flatMap fun _ => []) <+: l :=
  ⟨l, nothing_append n l⟩

section
variable {s : State} {subst : Substrate} {n : Nat} {x : Nat → WordRead}

/-- RDIMG begins its loop on the current substrate. -/
theorem exec_rdimg (hs : s.atStart) (hready : s.substrateReady) :
    exec .rdimg s = .next (runOps (rdimgProgram s.hcfg.subst).tail (s.setPos 1)) :=
  runProgram_admitted hs (prologue_ok_either hready)

/-- What RDIMG leaves once it has stored all 64 words. -/
def State.imageRead (t : State) : State := ((t.setWidx (BitVec.ofNat 7 wordCount)).bump).finish

/-- All 64 words read and stored, RDIMG finishes. -/
theorem rdimg_stores (hx : ReadsAll subst s.hcfg 64 x) (h : s.host = [])
    (hc : ((List.range 64).flatMap fun k => (x k).bus) <+: s.chipIn)
    (hf : ((List.range 64).flatMap fun k => (x k).file) <+: s.fileIn) :
    ∃ t, runOps (rdimgProgram subst).tail s = t.imageRead ∧ s.StoresWords t subst 64 x := by
  obtain ⟨t, ht, hst⟩ := reaches_rdimgWords hx le_rfl h hc hf
  have hhost : t.host = [] := by
    rw [hst.frame]
    exact h
  exact ⟨t, (ht _).trans ((runOps_act hhost).trans (runOps_finish hhost)), hst⟩

/-- The frame of RDIMG, and its requests. -/
theorem State.StoresWords.imageRead_frame {t : State} (h : (s.setPos 1).StoresWords t subst 64 x) :
    t.imageRead.hres1 = s.hres1 ∧
      t.imageRead.trace = s.trace ++ (List.range 64).flatMap (fun k => (x k).reqs) ∧ s.sameHostSide t.imageRead ∧
      t.imageRead.pw = s.pw ∧ t.imageRead.authByte = s.authByte ∧ t.imageRead.draws = s.draws ∧
      t.imageRead.host = s.host := by
  rw [h.frame]
  exact ⟨rfl, rfl, ⟨rfl, rfl, rfl, rfl, rfl, rfl, rfl⟩, rfl, rfl, rfl, rfl⟩

/-- The words below n are the beginning of the loop, and word n comes next. -/
theorem rdimgProgram_split (subst : Substrate) (hn : n < wordCount) : ∃ rest,
    (rdimgProgram subst).tail = (List.range n).flatMap (rdimgWord subst) ++ (rdimgWord subst n ++ rest) := by
  have hsplit := List.take_append_drop n (List.range wordCount)
  rw [List.drop_eq_getElem_cons (by simpa using hn), List.getElem_range, List.take_range, min_eq_left hn.le] at hsplit
  refine ⟨((List.range wordCount).drop (n + 1)).flatMap (rdimgWord subst) ++ [leaveLoop, .finish], ?_⟩
  rw [rdimgProgram, List.tail_cons, ← hsplit, List.flatMap_append, List.flatMap_cons, hsplit]
  simp only [List.append_assoc]

/-- n words read and stored and the next EeRead failed: RDIMG ends there, with what it had stored (60_exceptions
R172). -/
theorem rdimg_fails {code : ErrCode} {m : Nat} (hn : n < wordCount) (hx : ReadsAll subst s.hcfg n x) (h : s.host = [])
    (hc : ((List.range n).flatMap fun k => (x k).bus) <+: s.chipIn)
    (hf : ((List.range n).flatMap fun k => (x k).file) <+: s.fileIn)
    (hfail : ∀ t rest, s.StoresWords t subst n x → t.host = [] →
      (t.entered n).FailsTo (runOps (eeRead subst (wordAddr n) storeB0 storeB1 ++ rest) (t.entered n)) code m) :
    ∃ t, s.StoresWords t subst n x ∧ t.FailsTo (runOps (rdimgProgram subst).tail s) code m := by
  obtain ⟨t, ht, hst⟩ := reaches_rdimgWords hx hn.le h hc hf
  obtain ⟨rest, hsplit⟩ := rdimgProgram_split subst hn
  have hhost : t.host = [] := by
    rw [hst.frame]
    exact h
  refine ⟨t, hst, ?_⟩
  rw [hsplit, ht, rdimgWord, List.cons_append, List.append_assoc]
  exact (reaches_enterWord hhost n _).symm ▸ (hfail t _ hst hhost).after (s := t) (k := 0) rfl rfl rfl

/-- What RDIMG leaves once it has failed at word n. -/
theorem State.StoresWords.fails {t u : State} {code : ErrCode} {c m : Nat} (hst : (s.setPos 1).StoresWords t subst n x)
    (hu : t.FailsTo u code m) (hres0 : s.hres0 = 0) (hreqs : ∀ k, (x k).reqs.length = c) :
    u.hres0 = BitVec.ofNat 32 (2 * n) ∧ u.hstat.busy = false ∧ u.hstat.done = true ∧ u.hstat.err = true ∧
      u.hstat.serr = true ∧ u.hstat.errcode = code ∧
      (∀ k < n, u.img.read (2 * k) = some (x k).b0 ∧ u.img.read (2 * k + 1) = some (x k).b1) ∧
      (∀ i, 2 * n ≤ i → u.img.read i = s.img.read i) ∧ u.trace.length = s.trace.length + c * n + m := by
  obtain ⟨h, hh⟩ := hu.hstat
  refine ⟨?_, by rw [hh]; rfl, by rw [hh]; rfl, by rw [hh]; rfl, by rw [hh]; rfl, by rw [hh]; rfl, ?_, ?_, ?_⟩
  · rw [hu.hres0, hst.hres0]
    split
    · next h0 =>
      subst h0
      exact hres0
    · rfl
  · rw [hu.img]
    exact hst.words
  · rw [hu.img]
    exact hst.beyond
  · rw [hu.requests, hst.frame]
    simp [List.length_flatMap, hreqs, Nat.mul_comm]

end

/-! ### The statements -/

/-- Settles O31: the loop over all 64 words, and finish. -/
theorem rdimgLiveFillsImage : Obligations.RdimgLiveFillsImage := by
  intro s w rest hs hc hw
  obtain ⟨hstart, hsubst, hready⟩ := hs
  have ⟨_, hhost⟩ := hstart
  obtain ⟨t, ht, hst⟩ := rdimg_stores (s := s.setPos 1) (readsAll_live hw) hhost ⟨rest, hc.symm⟩ (nothing_prefix 64 _)
  have hexec : exec .rdimg s = .next t.imageRead := by
    rw [exec_rdimg hstart fun _ => hready, hsubst, ht]
  have hchip : t.chipIn = rest := List.append_cancel_left (hst.chipIn.symm.trans hc)
  have hfile : s.fileIn = t.fileIn := hst.fileIn.trans (nothing_append 64 _)
  have hhstat : t.hstat.finished = s.hstat.finishedLocked := by
    rw [hst.hstat]
    rfl
  obtain ⟨hres1, htrace, hside, hpw, hauth, hdraws, hend⟩ := hst.imageRead_frame
  exact ⟨_, hexec, hst.hres0, hres1, hhstat, hst.words, hst.beyond, htrace, hchip, hside, hpw, hauth, hfile.symm, hdraws,
    hend.trans hhost⟩

/-- Settles O32: the same loop, with two file requests a word. -/
theorem rdimgFileFillsImage : Obligations.RdimgFileFillsImage := by
  intro s f rest hs hc hf
  obtain ⟨hstart, hsubst⟩ := hs
  have ⟨_, hhost⟩ := hstart
  obtain ⟨t, ht, hst⟩ := rdimg_stores (s := s.setPos 1) (readsAll_file hf) hhost (nothing_prefix 64 _) ⟨rest, hc.symm⟩
  have hexec : exec .rdimg s = .next t.imageRead := by
    rw [exec_rdimg hstart (substrateReady_of_file hsubst), hsubst, ht]
  have hfile : t.fileIn = rest := List.append_cancel_left (hst.fileIn.symm.trans hc)
  have hchip : s.chipIn = t.chipIn := hst.chipIn.trans (nothing_append 64 _)
  have hhstat : t.hstat.finished = s.hstat.finished := by
    rw [hst.hstat]
    rfl
  have hreqs : (List.range 64).flatMap (fun k => eeFileReqs (wordAddr k)) =
      (List.range 64).flatMap fun k => [.fileSize, .fileRead (2 * k) 2] :=
    List.flatMap_congr fun k hk => by rw [eeFileReqs, wordAddr_toNat (List.mem_range.mp hk)]
  obtain ⟨hres1, htrace, hside, hpw, hauth, hdraws, hend⟩ := hst.imageRead_frame
  exact ⟨_, hexec, hst.hres0, hres1, hhstat, hst.words, hst.beyond, htrace.trans (congrArg _ hreqs), hfile, hside, hpw,
    hauth, hchip.symm, hdraws, hend.trans hhost⟩

/-- Settles O33: the loop over the words below n, and the EeRead of word n that fails. -/
theorem rdimgErrorKeepsWords : Obligations.RdimgErrorKeepsWords := by
  refine ⟨fun s n j w a rest hn hj hs hres0 hc hw ha => ?_, fun s n f sz rd rest hn hs hres0 hc hf hbad => ?_⟩
  · obtain ⟨hstart, hsubst, hready⟩ := hs
    have ⟨_, hhost⟩ := hstart
    rw [List.append_assoc] at hc
    obtain ⟨t, hst, hfail⟩ := rdimg_fails (s := s.setPos 1) (code := readError a)
      (m := [1, 3, 5, 6, 7, 8, 9].getD j 0) hn (readsAll_live fun k hk => hw k hk.le) hhost ⟨_, hc.symm⟩
      (nothing_prefix n _) fun t _ hst hthost => by
        have hchip := List.append_cancel_left (hst.chipIn.symm.trans hc)
        have hpoll : t.hpoll = s.hpoll := by
          rw [hst.frame]
          rfl
        exact eeReadLive_fails (s := t.entered n) (g0 := fun x t => { t with b0 := x })
          (g1 := fun x t => { t with b1 := x }) hj hthost hchip (hw n le_rfl) (hpoll ▸ ha)
    rw [exec_rdimg hstart fun _ => hready, hsubst]
    exact ⟨_, rfl, hst.fails hfail hres0 fun _ => rfl⟩
  · obtain ⟨hstart, hsubst⟩ := hs
    have ⟨_, hhost⟩ := hstart
    obtain ⟨t, hst, hfail⟩ := rdimg_fails (s := s.setPos 1)
      (code := if sz.ioerr = false ∧ sz.size ≠ 128 then .imageSizeMismatch else .ioFailure)
      (m := if sz.ioerr = false ∧ sz.size = 128 then 2 else 1) hn (readsAll_file hf) hhost
      (nothing_prefix n _) ⟨_, hc.symm⟩ fun t _ hst hthost =>
        eeReadFile_fails (s := t.entered n) hthost (List.append_cancel_left (hst.fileIn.symm.trans hc)) hbad
    rw [exec_rdimg hstart (substrateReady_of_file hsubst), hsubst]
    exact ⟨_, rfl, hst.fails hfail hres0 fun _ => rfl⟩

end Sys2Proof.Machine
end

section
/-! The modes each command writes to chip register 0x5F (30_encoding R91): an erase is a line of WRREG or of REWRITE,
and of REWRITE only past its step 6 (42_auth R131, R132). -/

namespace Sys2Proof.Machine

/-! ### The lines -/

/-- What the line writes to 0x5F, none for any other line. -/
def MicroOp.mode? : MicroOp → Option (State → Byte)
  | .busW reg v => if reg = regEeControl then some v else none
  | _ => none

/-- The modes that lines write to 0x5F, in order. -/
def modesOf (ops : List MicroOp) : List (State → Byte) := ops.filterMap MicroOp.mode?

/-- A request that drives 0x5F with a mode is its write. -/
theorem Request.isModeWrite_iff {q : Request} {x : Byte} :
    q.isModeWrite x = true ↔ ∃ dev, q = .busW dev regEeControl x := by
  cases q <;> simp [Request.isModeWrite]

/-- The line that issues a write of 0x5F is one of the lines `modesOf` lists. -/
theorem mem_modesOf_of_request {ops : List MicroOp} {op : MicroOp} {u : State} {q : Request} {x : Byte}
    (hop : op ∈ ops) (hreq : op.request? u = some q) (hq : q.isModeWrite x = true) : ∃ v ∈ modesOf ops, v u = x := by
  obtain ⟨dev, rfl⟩ := Request.isModeWrite_iff.mp hq
  cases op with
  | busW reg v =>
    obtain ⟨-, hreg, hx⟩ := Request.busW.inj (Option.some.inj hreq)
    exact ⟨v, List.mem_filterMap.mpr ⟨_, hop, if_pos hreg⟩, hx⟩
  | _ => cases hreq

@[simp] theorem modesOf_nil : modesOf [] = [] := rfl

@[simp] theorem modesOf_append (ops ops' : List MicroOp) : modesOf (ops ++ ops') = modesOf ops ++ modesOf ops' :=
  List.filterMap_append

@[simp] theorem modesOf_flatMap (l : List Nat) (f : Nat → List MicroOp) :
    modesOf (l.flatMap f) = l.flatMap fun k => modesOf (f k) :=
  List.filterMap_flatMap

section
variable (ops : List MicroOp)

@[simp] theorem modesOf_compute (f : State → Except ErrCode State) : modesOf (.compute f :: ops) = modesOf ops := rfl
@[simp] theorem modesOf_act (f : State → State) : modesOf (act f :: ops) = modesOf ops := rfl
@[simp] theorem modesOf_busR (reg : Byte) (store : Byte → State → State) :
    modesOf (.busR reg store :: ops) = modesOf ops := rfl
@[simp] theorem modesOf_finish : modesOf (.finish :: ops) = modesOf ops := rfl

end

/-! ### The sub-procedures (41_eeprom R113-R115) -/

/-- The codes other than the erase and the request for privileged access (30_encoding R91). -/
def plainModes : List (State → Byte) := [fun _ => codeEeLock, fun _ => codeEeWrite, fun _ => codeEeRead]

theorem plainModes_ne_erase {v : State → Byte} (h : v ∈ plainModes) (u : State) : v u ≠ codeEeErase := by
  simp only [plainModes, List.mem_cons, List.not_mem_nil, or_false] at h
  obtain rfl | rfl | rfl := h <;> simp

@[simp] theorem modesOf_lockOps : modesOf lockOps = [fun _ => codeEeLock] := rfl

@[simp] theorem modesOf_eeReadLive (a : Byte) (store0 store1 : Byte → State → State) :
    modesOf (eeReadLive a store0 store1) = [fun _ => codeEeRead, fun _ => codeEeLock] := rfl

@[simp] theorem modesOf_eeWrite (a : Byte) (b0 b1 : State → Byte) :
    modesOf (eeWrite a b0 b1) = [fun _ => codeEeWrite, fun _ => codeEeLock] := rfl

@[simp] theorem modesOf_eeRead_subset (subst : Substrate) (a : Byte) (store0 store1 : Byte → State → State) :
    modesOf (eeRead subst a store0 store1) ⊆ plainModes := by
  cases subst with
  | liveDevice => simp [eeRead, plainModes]
  | fileImage => exact List.nil_subset _

/-! ### The commands -/

/-- A command other than WRREG and REWRITE reads words, writes words and locks, if it writes 0x5F at all. -/
theorem modesOf_linesOf {i : Instr} (hc : isControl i = false) (hw : ∀ reg data, i ≠ .wrreg reg data)
    (hr : i ≠ .rewrite) (subst : Substrate) : modesOf (linesOf i subst) ⊆ plainModes := by
  cases i with
  | wrreg reg data => exact absurd rfl (hw reg data)
  | rewrite => exact absurd rfl hr
  | eeLock | eeAuth | eeWrite | eeErase | eeRead => cases hc
  | rdreg | chipid | reboot | cellv | loadimg | saveimg | adc2mv | v2adc | setrs | setvl | sext4 | decauth =>
    exact List.nil_subset _
  | rdword | rsense | limit | thresh | unpack =>
    simp [linesOf, rdwordProgram, rsenseProgram, limitProgram, threshProgram, unpackProgram]
  | curr => simp [linesOf, currProgram, plainModes]
  | wrword | lock => simp [linesOf, wrwordProgram, lockProgram, plainModes]
  | rdimg =>
    simp only [linesOf, rdimgProgram, rdimgWord, enterWord, leaveLoop, modesOf_compute, modesOf_append,
      modesOf_flatMap, modesOf_act, modesOf_finish, modesOf_nil, List.append_nil]
    intro v hv
    obtain ⟨k, -, hk⟩ := List.mem_flatMap.mp hv
    exact modesOf_eeRead_subset _ _ _ _ hk

/-- REWRITE up to its step 6 reads a word and requests access (42_auth R132). -/
theorem modesOf_rewriteHead : modesOf (rewriteProgram.take (rewriteGate + 1)) =
    [fun _ => codeEeRead, fun _ => codeEeLock, fun _ => codeEeAuth, fun _ => codeEeLock] := rfl

/-- No line of REWRITE up to its step 6 is an erase. -/
theorem rewriteHead_spares {k : Nat} (hk : k ≤ rewriteGate) {op : MicroOp} (hop : rewriteProgram[k]? = some op)
    {u : State} {q : Request} (hreq : op.request? u = some q) : q.isModeWrite codeEeErase = false := by
  by_contra herase
  have hmem : op ∈ rewriteProgram.take (rewriteGate + 1) :=
    List.mem_of_getElem? ((List.getElem?_take_of_lt (Nat.lt_succ_of_le hk)).trans hop)
  obtain ⟨v, hv, hvu⟩ := mem_modesOf_of_request hmem hreq (Bool.eq_true_of_not_eq_false herase)
  rw [modesOf_rewriteHead] at hv
  simp only [List.mem_cons, List.not_mem_nil, or_false] at hv
  obtain rfl | rfl | rfl | rfl := hv <;> simp at hvu

end Sys2Proof.Machine
end

section
/-! How far a turn has come when it issues a request, and the statement on the erase: it is issued by WRREG or by a
REWRITE past its step 6 (42_auth R131, R135). -/

namespace Sys2Proof.Machine

/-! ### A turn's requests by their lines -/

section
variable {f : Except DecodeError Instr} {s t u : State} {op : MicroOp} {n : Nat} {p : Request → Prop}

/-- As long as the sequencer is not past line n, every request logged from s to t is one of p. -/
def State.LogsUpTo (n : Nat) (p : Request → Prop) (s t : State) : Prop :=
  ∃ new, t.trace = s.trace ++ new ∧ (t.pos ≤ n → ∀ q ∈ new, p q)

theorem State.LogsUpTo.refl (s : State) : s.LogsUpTo n p s := ⟨[], by simp, by simp⟩

/-- Moving on only weakens what is said. -/
theorem State.LogsUpTo.of_trace_eq (h : s.LogsUpTo n p t) (htrace : u.trace = t.trace) (hpos : t.pos ≤ u.pos) :
    s.LogsUpTo n p u := by
  obtain ⟨new, hnew, hp⟩ := h
  exact ⟨new, htrace.trans hnew, fun hu => hp (hpos.trans hu)⟩

theorem State.LogsUpTo.endTurn (h : s.LogsUpTo n p t) : s.LogsUpTo n p t.endTurn := by
  obtain ⟨l, hl⟩ := endTurn_eq_setHost t
  exact hl ▸ h.of_trace_eq rfl le_rfl

/-- One more line of the program. -/
theorem State.LogsUpTo.perform (h : s.LogsUpTo n p t) {subst : Substrate} (hop : op ∈ linesFor f subst)
    (hp : t.pos ≤ n → ∀ q, op.request? t = some q → p q) : s.LogsUpTo n p (op.perform t).state := by
  obtain ⟨new, hnew, hall⟩ := h
  refine ⟨new ++ (op.request? t).toList, ?_, fun hpos q hq => ?_⟩
  · rw [perform_trace (fun _ _ => computes_trace hop) t, hnew, List.append_assoc]
  · rw [perform_pos hop] at hpos
    rcases List.mem_append.mp hq with hq | hq
    · exact hall hpos q hq
    · exact hp hpos q (by simpa using hq)

/-- If the lines up to n issue requests of p only, so does a turn that ends at one of them. -/
theorem runProgram_logsUpTo
    (hp : ∀ k ≤ n, ∀ op u q, (linesFor f s.hcfg.subst)[k]? = some op → op.request? u = some q → p q)
    (h : runProgram (linesFor f s.hcfg.subst) s = .next t) : s.LogsUpTo n p t := by
  rcases runProgram_cases (linesFor f s.hcfg.subst) s with ⟨-, he⟩ | ⟨-, he⟩ <;> rw [h] at he <;> cases he
  have hline {k : Nat} {op : MicroOp} {u : State} {r : MicroResult} (hop : (linesFor f s.hcfg.subst)[k]? = some op)
      (hu : u.pos = k ∧ s.LogsUpTo n p u) (hr : op.perform u = r) : r.state.pos = k ∧ s.LogsUpTo n p r.state := by
    obtain ⟨rfl, hlogs⟩ := hu
    have hmem := List.mem_of_getElem? hop
    exact hr ▸ ⟨perform_pos hmem u, hlogs.perform hmem fun hpos q => hp u.pos hpos op u q hop⟩
  refine runOps_induction (P := fun k u => u.pos = k ∧ s.LogsUpTo n p u) (Q := s.LogsUpTo n p) ?_ ?_ ?_ ?_ s.pos s
    ⟨rfl, .refl s⟩
  · intro k op u v hop hu hv
    obtain ⟨hpos, hlogs⟩ := hline hop hu hv
    exact ⟨congrArg (· + 1) hpos, hlogs.of_trace_eq rfl (Nat.le_succ _)⟩
  · intro k op u v hop hu hv
    obtain ⟨-, hlogs⟩ := hline hop hu hv
    exact hlogs.endTurn
  · intro k op u v hop hu hv
    obtain ⟨-, hlogs⟩ := hline hop hu hv
    exact hlogs.endTurn
  · rintro k u ⟨-, hlogs⟩
    exact hlogs.endTurn

/-! ### REWRITE's erase -/

/-- A turn of REWRITE that ends past its step 6 holds a status byte with PWD_OK (42_auth R132). -/
theorem State.Turn.granted (h : s.Turn (.ok .rewrite) t) (hs : s.Sound (.ok .rewrite)) (hpos : rewriteGate < t.pos) :
    t.authByte.getLsbD bitPwdOk = true := by
  obtain ⟨u, hu, rfl | rfl | ⟨code, -, rfl⟩⟩ := h <;> exact (hu.sound hs).granted rfl hpos

/-- A turn of REWRITE that issues an erase ends past its step 6. -/
theorem rewrite_erase_past_gate {q : Request} (h : runProgram rewriteProgram s = .next t)
    (hq : q ∈ t.trace.drop s.trace.length) (herase : q.isModeWrite codeEeErase = true) : rewriteGate < t.pos := by
  by_contra hpos
  obtain ⟨new, hnew, hspares⟩ := runProgram_logsUpTo (f := .ok .rewrite) (n := rewriteGate)
    (p := fun q => q.isModeWrite codeEeErase = false) (fun k hk op u q hop hreq => rewriteHead_spares hk hop hreq) h
  rw [hnew, List.drop_left] at hq
  exact Bool.noConfusion (herase.symm.trans (hspares (Nat.le_of_not_lt hpos) q hq))

/-- A request of a step is one of the sequencer's turn that the step is. -/
theorem step_turn_of_request {q : Request} (h : step s = .next t) (hq : q ∈ t.trace.drop s.trace.length) :
    ∃ r, s.TurnBegins r ∧ sequencerTurn r = .next t := by
  have hsame : t.trace ≠ s.trace := fun he => by simp [he] at hq
  rcases step_next_cases h with h | ⟨off, w, rest, -, rfl⟩ | ⟨rest, -, rfl⟩ | ⟨-, htrace⟩
  · exact h
  · exact absurd (hostWrite_trace _ off w) hsame
  · exact absurd rfl hsame
  · exact absurd htrace hsame

/-- A REWRITE that issues an erase in its turn holds a status byte with PWD_OK at the turn's end. -/
theorem State.Inv.rewrite_erase_granted (hinv : s.Inv) (hfetch : s.fetch = .ok .rewrite)
    (h : Machine.sequencerTurn s = .next t) {q : Request} (hq : q ∈ t.trace.drop s.trace.length)
    (herase : q.isModeWrite codeEeErase = true) : t.authByte.getLsbD bitPwdOk = true := by
  rcases sequencerTurn_next h with ⟨-, l, rfl⟩ | ⟨hb, hturn⟩
  · simp at hq
  · have hsound := hinv.sound hb
    rw [hfetch] at hturn hsound
    rw [sequencerTurn_eq, if_pos hb, s.lines_eq, hfetch] at h
    exact hturn.granted hsound (rewrite_erase_past_gate h hq herase)

end

/-! ### The statement -/

/-- Settles O39: the line that issues the erase is WRREG's, or one of REWRITE past its step 6. -/
theorem eraseNeedsPasswordOk : Obligations.EraseNeedsPasswordOk := by
  intro s t q hinv h hq herase
  obtain ⟨i, u, op, hi, -, -, -, hop, hreq⟩ := hinv.step_request h hq
  have hline : op ∈ linesOf i s.hcfg.subst := List.mem_of_getElem? hop
  by_cases hw : ∃ reg data, i = .wrreg reg data
  · obtain ⟨reg, data, rfl⟩ := hw
    obtain ⟨dev, rfl⟩ : ∃ dev, q = .busW dev regEeControl codeEeErase := Request.isModeWrite_iff.mp herase
    obtain ⟨rfl, rfl⟩ := wrreg_request hline hreq
    exact .inl hi
  · by_cases hr : i = .rewrite
    · subst hr
      obtain ⟨r, hr, hturn⟩ := step_turn_of_request h hq
      obtain ⟨-, -, -, -, htrace, hfetch⟩ := hr.hstat
      exact .inr ⟨hi, (hr.inv hinv).rewrite_erase_granted (hfetch.trans hi) hturn (htrace ▸ hq) herase⟩
    · obtain ⟨v, hv, hvu⟩ := mem_modesOf_of_request hline hreq herase
      have hplain := modesOf_linesOf (fetch_not_control hi) (fun reg data he => hw ⟨reg, data, he⟩) hr s.hcfg.subst hv
      exact absurd hvu (plainModes_ne_erase hplain u)

end Sys2Proof.Machine
end

section
/-! REWRITE (42_auth R132, R133, R135): the authentication, the PWD_OK test, the erase and the loop over the 64 words,
and the two statements on how the test ends. -/

namespace Sys2Proof.Machine

/-! ### Steps 1 to 5: the authentication -/

section
variable {s : State} {rest : List MicroOp} {w : WordAnswers} {p st q : BusAnswer} {r : List BusAnswer}

/-- Steps 1 and 2: the password word is read into PW and HRES1. -/
theorem runOps_password (h : s.host = []) (hc : s.chipIn = w.list ++ r) (hw : w.good) :
    runOps (eeReadLive eePassword storePwLo storePwHi ++ act capturePassword ::
      act (fun s => s.setHres1 (s.pw.setWidth 32)) :: rest) s = runOps rest { s with
        hres1 := (wordOf w.hi.data w.lo.data).setWidth 32
        hstat := { s.hstat with phase := .idle, lastmode := codeEeLock }, pw := wordOf w.hi.data w.lo.data
        tmp := { s.tmp with pwLo := w.lo.data, pwHi := w.hi.data, s := w.p5.data }, pollcnt := 1, pos := s.pos + 17
        chipIn := r, trace := s.trace ++ eeReadReqs s.hcfg.devaddr eePassword } := by
  refine Eq.trans (runOps_eeReadLive (g0 := fun x t => { t with pwLo := x }) (g1 := fun x t => { t with pwHi := x })
    h hc hw) ?_
  refine Eq.trans (runOps_act h) ?_
  exact runOps_act h

/-- Step 3: access is requested and the password's two bytes are submitted. -/
theorem runOps_submit (h : s.host = []) (hc : s.chipIn = p :: r) (hp : quiet p) :
    runOps (waitWrite regEeControl (fun _ => codeEeAuth) ++ .busW regPasswordLo (fun s => s.tmp.pwLo) ::
      .busW regPasswordHi (fun s => s.tmp.pwHi) :: rest) s = runOps rest { s with
        hstat := { s.hstat with phase := .modeSet, lastmode := codeEeAuth }, tmp := { s.tmp with s := p.data }
        pollcnt := 1, pos := s.pos + 5, chipIn := r
        trace := s.trace ++ [pollReq s.hcfg.devaddr, .busW s.hcfg.devaddr regEeControl codeEeAuth,
          .busW s.hcfg.devaddr regPasswordLo s.tmp.pwLo, .busW s.hcfg.devaddr regPasswordHi s.tmp.pwHi] } := by
  refine Eq.trans (runOps_waitWrite h hc hp rfl) ?_
  refine Eq.trans (runOps_busW h) ?_
  refine Eq.trans (runOps_busW h) ?_
  simp only [State.waitWritten, busWrite_eq, State.bump, State.setPos, List.append_assoc]
  rfl

/-- Step 4: the status byte is read into AS and HRES0, and its class into AUTHST. -/
theorem runOps_authStatus (h : s.host = []) (hc : s.chipIn = st :: r) (hst : answered st = true) :
    runOps (readAuthStatus :: act (fun s => s.setHres0 (s.authByte.setWidth 32)) :: recordAuthState :: rest) s =
      runOps rest { s with
        hres0 := st.data.setWidth 32, hstat := { s.hstat with authst := authClass st.data }, authByte := st.data
        pos := s.pos + 3, chipIn := r, trace := s.trace ++ [.busR s.hcfg.devaddr regAuthStatus] } := by
  have hhstat : s.hstat.afterRead regAuthStatus = s.hstat := rfl
  have hread := busRead_of_cons hc regAuthStatus
  rw [hhstat] at hread
  rw [readAuthStatus, runOps_busR (by rw [hread]; exact h) hc hst, hread, runOps_act (by exact h), recordAuthState,
    runOps_act (by exact h)]
  rfl

/-- The state after REWRITE's steps 1 to 5 with immediate polls: the password word from the chip, the status byte st
and its class, and the device locked. -/
def State.authenticated (s : State) (w : WordAnswers) (st q : BusAnswer) (r : List BusAnswer) : State :=
  { s with
    hres0 := st.data.setWidth 32, hres1 := (wordOf w.hi.data w.lo.data).setWidth 32
    hstat := { s.hstat with authst := authClass st.data, phase := .idle, lastmode := codeEeLock }
    pw := wordOf w.hi.data w.lo.data, authByte := st.data
    tmp := { s.tmp with pwLo := w.lo.data, pwHi := w.hi.data, s := q.data }, pollcnt := 1
    pos := s.pos + authOps.length, chipIn := r
    trace := s.trace ++ authReqs s.hcfg.devaddr w.lo.data w.hi.data }

/-- Steps 1 to 5 (42_auth R132). -/
theorem reaches_authOps (h : s.host = []) (hc : s.chipIn = w.list ++ p :: st :: q :: r) (hw : w.good) (hp : quiet p)
    (hst : answered st = true) (hq : quiet q) : Reaches authOps s (s.authenticated w st q r) := by
  intro rest
  simp only [authOps, List.append_assoc]
  refine Eq.trans (runOps_password h hc hw) ?_
  refine Eq.trans (runOps_submit h rfl hp) ?_
  refine Eq.trans (runOps_authStatus h rfl hst) ?_
  refine Eq.trans (runOps_waitWrite h rfl hq rfl) ?_
  simp only [State.waitWritten, State.authenticated, authReqs, List.append_assoc]
  rfl

theorem runOps_requireComplete (himg : s.img.complete = true) (h : s.host = []) :
    runOps (requireComplete :: rest) s = runOps rest s.bump := runOps_require_ok himg h

/-- Step 6: with PWD_OK the erase follows. -/
theorem runOps_password_ok (hok : s.authByte.getLsbD bitPwdOk = true) (h : s.host = []) :
    runOps (requirePasswordOk :: rest) s = runOps rest s.bump := runOps_require_ok hok h

/-- Step 6: without PWD_OK the command ends with AUTH_FAILED. -/
theorem runOps_password_rejected (hno : s.authByte.getLsbD bitPwdOk = false) (h : s.host = []) :
    runOps (requirePasswordOk :: rest) s = s.raise .authFailed := runOps_require_fails hno h

/-- REWRITE of a complete IMG comes to its step 6. -/
theorem exec_rewrite_authenticated (hs : s.atStartLive) (himg : s.img.complete = true)
    (hc : s.chipIn = w.list ++ p :: st :: q :: r) (hw : w.good) (hp : quiet p) (hst : answered st = true)
    (hq : quiet q) : exec .rewrite s =
      .next (runOps (requirePasswordOk :: rewriteTail) ((s.setPos 2).authenticated w st q r)) := by
  have ⟨⟨_, hhost⟩, _⟩ := hs
  have hbump : (s.setPos 1).bump = s.setPos 2 := rfl
  change runProgram rewriteProgram s = _
  rw [rewriteProgram_eq, List.cons_append, runProgram_live hs, List.cons_append,
    runOps_requireComplete (s := s.setPos 1) himg hhost, hbump,
    reaches_authOps (s := s.setPos 2) hhost hc hw hp hst hq]

end

/-! ### Steps 7 and 8: the erase and the words -/

/-- HSTAT once the device is locked again (10_state R29, R30). -/
def Hstat.locked (h : Hstat) : Hstat := { h with phase := .idle, lastmode := codeEeLock }

/-- u is s after round k of the loop, which wrote the two bytes. -/
structure State.WritesWord (s u : State) (k : Nat) (b0 b1 : Byte) (p : PollAnswers) : Prop where
  frame : u = { s with
    hstat := s.hstat.locked, pos := u.pos, pollcnt := u.pollcnt, widx := u.widx, tmp := u.tmp, chipIn := u.chipIn
    trace := s.trace ++ eeWriteReqs s.hcfg.devaddr (wordAddr k) b0 b1 }
  chipIn : s.chipIn = p.list ++ u.chipIn

/-- t is s after the rounds below n, which wrote the bytes of img. -/
structure State.WritesWords (s t : State) (n : Nat) (img : Nat → Byte) (ps : Nat → PollAnswers) : Prop where
  frame : t = { s with
    hstat := t.hstat, pos := t.pos, pollcnt := t.pollcnt, widx := t.widx, tmp := t.tmp, chipIn := t.chipIn
    trace := s.trace ++ (List.range n).flatMap fun k =>
      eeWriteReqs s.hcfg.devaddr (wordAddr k) (img (2 * k)) (img (2 * k + 1)) }
  chipIn : s.chipIn = ((List.range n).flatMap fun k => (ps k).list) ++ t.chipIn
  hstat : t.hstat = if n = 0 then s.hstat else s.hstat.locked

section
variable {s t u : State} {n k : Nat} {img : Nat → Byte} {ps : Nat → PollAnswers} {r : List BusAnswer}

/-- A round writes the word at its address from IMG, read at the moment of each write. -/
theorem reaches_rewriteWord {p : PollAnswers} (hk : k < wordCount) (himg : ∀ j < imageSize, s.img.read j = some (img j))
    (h : s.host = []) (hc : s.chipIn = p.list ++ r) (hp : p.good) :
    ∃ u, Reaches (rewriteWord k) s u ∧ s.WritesWord u k (img (2 * k)) (img (2 * k + 1)) p ∧ u.chipIn = r := by
  have hsize : 2 * k + 1 < imageSize := by
    change 2 * k + 1 < 128
    change k < 64 at hk
    omega
  have hbyte {j : Nat} (hj : j < imageSize) {t : State} (ht : t.img = s.img) : t.imgByte j = img j :=
    State.imgByte_of_read (ht ▸ himg j hj)
  have haddr {t : State} (ht : t.tmp.a = wordAddr k) : t.tmp.a.toNat = 2 * k := by rw [ht, wordAddr_toNat hk]
  refine ⟨_, (reaches_enterWord h k).append fun _ => runOps_eeWrite (s := s.entered k) h hc hp
    (fun t ht ha => ?_) (fun t ht ha => ?_), ⟨rfl, hc⟩, rfl⟩
  · rw [haddr ha, hbyte (Nat.lt_of_succ_lt hsize) ht]
  · rw [haddr ha, hbyte hsize ht]

theorem State.WritesWords.zero : s.WritesWords s 0 img ps where
  frame := by simp
  chipIn := rfl
  hstat := rfl

/-- One round more. -/
theorem State.WritesWords.succ (h : s.WritesWords t n img ps)
    (h' : t.WritesWord u n (img (2 * n)) (img (2 * n + 1)) (ps n)) : s.WritesWords u (n + 1) img ps where
  frame := by
    rw [flatMap_range_succ, ← List.append_assoc, h'.frame, h.frame]
  chipIn := by rw [flatMap_range_succ, List.append_assoc, ← h'.chipIn, ← h.chipIn]
  hstat := by
    rw [h'.frame]
    change t.hstat.locked = s.hstat.locked
    rw [h.hstat]
    split <;> rfl

/-- The loop up to word n, by induction on n. -/
theorem reaches_rewriteWords (hn : n ≤ wordCount) (himg : ∀ j < imageSize, s.img.read j = some (img j))
    (h : s.host = []) (hc : s.chipIn = ((List.range n).flatMap fun k => (ps k).list) ++ r) (hp : ∀ k < n, (ps k).good) :
    ∃ t, Reaches ((List.range n).flatMap rewriteWord) s t ∧ s.WritesWords t n img ps ∧ t.chipIn = r := by
  induction n generalizing r with
  | zero => exact ⟨s, fun _ => rfl, .zero, hc⟩
  | succ n ih =>
    rw [flatMap_range_succ, List.append_assoc] at hc
    obtain ⟨t, ht, hst, hchip⟩ := ih (Nat.le_of_succ_le hn) hc fun k hk => hp k (hk.trans (Nat.lt_succ_self n))
    obtain ⟨u, hu, htu, hrest⟩ := reaches_rewriteWord (s := t) (img := img) hn (by rw [hst.frame]; exact himg)
      (by rw [hst.frame]; exact h) hchip (hp n (Nat.lt_succ_self n))
    rw [flatMap_range_succ]
    exact ⟨u, ht.append hu, hst.succ htu, hrest⟩

/-- What REWRITE leaves once it has written all 64 words. -/
def State.imageWritten (t : State) : State := ((t.setWidx (BitVec.ofNat 7 wordCount)).bump).finish

/-- Steps 7 and 8: the erase, the 64 words, and finish. -/
theorem runOps_rewriteTail {e : BusAnswer} {l : List BusAnswer} (himg : ∀ j < imageSize, s.img.read j = some (img j))
    (h : s.host = []) (hc : s.chipIn = e :: l) (he : quiet e)
    (hl : l = ((List.range 64).flatMap fun k => (ps k).list) ++ r) (hp : ∀ k < 64, (ps k).good) :
    ∃ t, runOps rewriteTail s = t.imageWritten ∧
      (s.waitWritten regEeControl codeEeErase e l).WritesWords t 64 img ps ∧ t.chipIn = r := by
  obtain ⟨t, ht, hst, hchip⟩ :=
    reaches_rewriteWords (s := s.waitWritten regEeControl codeEeErase e l) le_rfl himg h hl hp
  have hhost : t.host = [] := by
    rw [hst.frame]
    exact h
  refine ⟨t, ?_, hst, hchip⟩
  simp only [rewriteTail, eraseOps, List.append_assoc]
  rw [runOps_waitWrite h hc he rfl, ht]
  exact (runOps_act hhost).trans (runOps_finish hhost)

/-- What REWRITE's end leaves of the state the loop began in. -/
theorem State.WritesWords.imageWritten_frame (h : s.WritesWords t 64 img ps) :
    t.imageWritten.hres0 = s.hres0 ∧ t.imageWritten.hres1 = s.hres1 ∧ t.imageWritten.hstat = s.hstat.finishedLocked ∧
      t.imageWritten.trace = s.trace ++ (List.range 64).flatMap (fun k =>
        eeWriteReqs s.hcfg.devaddr (wordAddr k) (img (2 * k)) (img (2 * k + 1))) ∧
      t.imageWritten.pw = s.pw ∧ t.imageWritten.authByte = s.authByte ∧ t.imageWritten.img = s.img ∧
      s.sameHostSide t.imageWritten ∧ t.imageWritten.fileIn = s.fileIn ∧ t.imageWritten.draws = s.draws ∧
      t.imageWritten.host = s.host := by
  have hhstat : t.imageWritten.hstat = s.hstat.finishedLocked := congrArg Hstat.finished h.hstat
  refine ⟨?_, ?_, hhstat, ?_⟩ <;> rw [h.frame]
  · rfl
  · rfl
  · exact ⟨rfl, rfl, rfl, rfl, ⟨rfl, rfl, rfl, rfl, rfl, rfl, rfl⟩, rfl, rfl, rfl⟩

end

/-! ### Counting -/

theorem countP_flatMap_range {α : Type} (p : α → Bool) (f : Nat → List α) {c : Nat} (h : ∀ k, (f k).countP p = c)
    (n : Nat) : ((List.range n).flatMap f).countP p = n * c := by
  simp [List.countP_flatMap, Function.comp_def, h]

/-- REWRITE's transactions hold one erase, and one EE_WRITE a word (42_auth R135). -/
theorem rewriteReqs_modes (dev : BitVec 7) (lo hi : Byte) (img : Nat → Byte) :
    (authReqs dev lo hi ++ eraseReqs dev img).countP (Request.isModeWrite 0x53) = 1 ∧
    (authReqs dev lo hi ++ eraseReqs dev img).countP (Request.isModeWrite 0x52) = 64 := by
  simp only [eraseReqs, List.countP_append]
  rw [countP_flatMap_range (c := 0) _ _ fun _ => rfl, countP_flatMap_range (c := 1) _ _ fun _ => rfl]
  exact ⟨rfl, rfl⟩

theorem rewriteReqs_length (dev : BitVec 7) (lo hi : Byte) (img : Nat → Byte) :
    (authReqs dev lo hi ++ eraseReqs dev img).length = 659 := by
  simp [authReqs, eraseReqs, eeReadReqs, eeWriteReqs, List.length_flatMap, wordCount]

/-! ### The statements -/

/-- Settles O37: past the PWD_OK test come the erase and the loop over all 64 words. -/
theorem rewriteGrantedWritesImage : Obligations.RewriteGrantedWritesImage := by
  intro s img w p st q e ps rest hs himg hc hw hp hst hq he hps hok
  have ⟨⟨_, hhost⟩, _⟩ := hs
  have hcomplete : s.img.complete = true := (Memory.complete_iff _).mpr fun j hj => ⟨img j, himg j hj⟩
  simp only [List.append_assoc, List.cons_append, List.nil_append] at hc
  obtain ⟨l, hl⟩ : ∃ l, l = ((List.range 64).flatMap fun k => (ps k).list) ++ rest := ⟨_, rfl⟩
  rw [← hl] at hc
  obtain ⟨t, ht, hwords, hchip⟩ := runOps_rewriteTail (s := ((s.setPos 2).authenticated w st q (e :: l)).bump) himg
    hhost rfl he hl hps
  have hexec : exec .rewrite s = .next t.imageWritten := by
    rw [exec_rewrite_authenticated hs hcomplete hc hw hp hst hq,
      runOps_password_ok (s := (s.setPos 2).authenticated w st q (e :: l)) hok hhost, ht]
  obtain ⟨hres0, hres1, hhstat, htrace, hpw, hauth, hi, hside, hfile, hdraws, hend⟩ := hwords.imageWritten_frame
  have hclass : authClass st.data = .success := if_pos hok
  have hlog : t.imageWritten.trace =
      s.trace ++ (authReqs s.hcfg.devaddr w.lo.data w.hi.data ++ eraseReqs s.hcfg.devaddr img) := by
    rw [htrace]
    simp only [State.waitWritten, State.bump, State.setPos, State.authenticated, eraseReqs, List.append_assoc]
  have hnew : t.imageWritten.trace.drop s.trace.length =
      authReqs s.hcfg.devaddr w.lo.data w.hi.data ++ eraseReqs s.hcfg.devaddr img := by
    rw [hlog, List.drop_left]
  obtain ⟨herases, hwrites⟩ := rewriteReqs_modes s.hcfg.devaddr w.lo.data w.hi.data img
  refine ⟨_, hexec, hres0, hres1, ?_, hlog.trans (List.append_assoc ..).symm, by rw [hnew, herases],
    by rw [hnew, hwrites], by rw [hnew, rewriteReqs_length], hpw, hauth, hi, hchip, hside, hfile, hdraws,
    hend.trans hhost⟩
  rw [hhstat, ← hclass]
  rfl

/-- Settles O38: the PWD_OK test is the last line. -/
theorem rewriteRejectedWritesNothing : Obligations.RewriteRejectedWritesNothing := by
  intro s w p st q rest hs himg hc hw hp hst hq hok
  have ⟨⟨_, hhost⟩, _⟩ := hs
  simp only [List.append_assoc, List.cons_append, List.nil_append] at hc
  have hexec : exec .rewrite s = .next (((s.setPos 2).authenticated w st q rest).raise .authFailed) := by
    rw [exec_rewrite_authenticated hs himg hc hw hp hst hq,
      runOps_password_rejected (s := (s.setPos 2).authenticated w st q rest) hok hhost]
  have hclass : authClass st.data = if st.data.getLsbD 5 then .busy else .passwordRejected := by
    rw [authClass, if_neg (Bool.eq_false_iff.mp hok)]
  refine ⟨_, hexec, rfl, rfl, ?_, rfl, ?_, rfl, rfl, rfl, rfl, rfl, rfl, rfl, rfl, rfl⟩
  · rw [← hclass]
    rfl
  · change ((s.trace ++ authReqs _ _ _).drop s.trace.length).length = 17
    rw [List.drop_left]
    rfl

end Sys2Proof.Machine
end

section
/-! The arithmetic of the measurement decoders (43_measure R142-R154): each helper of the model as plain arithmetic, its
range, and the statements about the numbers alone. -/

namespace Sys2Proof.Machine

/-! ### The helpers as plain arithmetic -/

theorem cellRaw_eq (hi lo : Byte) : cellRaw hi lo = hi.toNat * 32 + lo.toNat / 8 := by
  rw [cellRaw, Nat.shiftLeft_eq, Nat.shiftRight_eq_div_pow]

/-- THRESH's `|` joins disjoint bits, so it is CELLV's `+`. -/
theorem threshCode_eq_cellRaw (b1 b0 : Byte) : threshCode b1 b0 = cellRaw b1 b0 := by
  have hlow : b0.toNat >>> 3 < 2 ^ 5 := by
    rw [Nat.shiftRight_eq_div_pow]
    omega
  rw [threshCode, cellRaw, Nat.or_comm, Nat.shiftLeft_add_eq_or_of_lt hlow]

theorem threshCode_eq (b1 b0 : Byte) : threshCode b1 b0 = b1.toNat * 32 + b0.toNat / 8 :=
  (threshCode_eq_cellRaw b1 b0).trans (cellRaw_eq b1 b0)

theorem fieldNat_eq (w : Word16) (lsb W : Nat) : fieldNat w lsb W = w.toNat / 2 ^ lsb % 2 ^ W := by
  rw [fieldNat, BitVec.extractLsb'_toNat, Nat.shiftRight_eq_div_pow]

theorem nib_eq (b : Byte) (m : NibMode) :
    nib b m = if m = .sext then Int.fdiv b.toInt 16 else Int.tdiv b.toInt 16 := by
  cases m <;> rfl

theorem hresNat_rsEff (b : Byte) : hresNat (rsEff b) = if b = 0 then 25 else b.setWidth 32 := by
  rw [rsEff]
  split
  · rfl
  · exact BitVec.eq_of_toNat_eq (BitVec.toNat_setWidth ..).symm

theorem hresInt_natCast (n : Nat) : hresInt n = hresNat n := BitVec.ofInt_natCast ..

/-- The operand check on a voltage is R150's bound. -/
theorem voltageOk_of_lt {x : Nat} (h : x < 999424) : voltageOk x = true := by
  have hcode : x / 122 ≤ 8191 := by omega
  exact decide_eq_true hcode

/-! ### Ranges -/

theorem cellRaw_le (hi lo : Byte) : cellRaw hi lo ≤ 8191 := by
  rw [cellRaw_eq]
  omega

theorem v2adc_le {x : Nat} (h : x < 999424) : v2adc x ≤ 8191 := of_decide_eq_true (voltageOk_of_lt h)

theorem rsEff_range (b : Byte) : 1 ≤ rsEff b ∧ rsEff b ≤ 255 := by
  unfold rsEff
  split
  · decide
  · next h =>
    have hpos : b.toNat ≠ 0 := fun h0 => h (BitVec.eq_of_toNat_eq h0)
    omega

/-- SEXT is the arithmetic shift, which rounds down. -/
theorem nib_sext_eq_ediv (b : Byte) : nib b .sext = b.toInt / 16 :=
  Int.fdiv_eq_ediv_of_nonneg _ (by decide)

/-- CDIV rounds toward zero: one more than SEXT for a negative byte that 16 does not divide. -/
theorem nib_cdiv_eq (b : Byte) :
    nib b .cdiv = nib b .sext + if b.toInt < 0 ∧ b.toInt % 16 ≠ 0 then 1 else 0 := by
  have hdiv : nib b .cdiv = b.toInt / 16 + if 0 ≤ b.toInt ∨ 16 ∣ b.toInt then 0 else 1 := Int.tdiv_eq_ediv
  rw [hdiv, nib_sext_eq_ediv]
  split_ifs <;> omega

theorem nib_range (b : Byte) (m : NibMode) : -8 ≤ nib b m ∧ nib b m ≤ 7 := by
  have hlo := b.le_toInt
  have hhi := b.toInt_lt
  cases m with
  | sext =>
    rw [nib_sext_eq_ediv]
    omega
  | cdiv =>
    rw [nib_cdiv_eq, nib_sext_eq_ediv]
    split_ifs <;> omega

/-- Division toward zero does not grow a magnitude. -/
theorem abs_tdiv_le (n d : Int) : |tdiv n d| ≤ |n| := by
  rw [tdiv, Int.abs_eq_natAbs, Int.abs_eq_natAbs, Int.ofNat_le]
  exact Int.natAbs_tdiv_le_natAbs n d

theorem abs_currentResult_le (w : Word16) (t : Nat) : |currentResult w.toInt t| ≤ 250019840 := by
  have hlo := w.le_toInt
  have hhi := w.toInt_lt
  have hscaled : |w.toInt * 7630| ≤ 250019840 := abs_le.mpr (by omega)
  exact (abs_tdiv_le _ _).trans hscaled

theorem abs_limitResult_le {v : Nat} (hv : v ≤ 255) (b : Byte) (m : NibMode) (t : Nat) :
    |limitResult v (nib b m) t| ≤ 13100000 := by
  obtain ⟨hlo, hhi⟩ := nib_range b m
  have hscaled : |(v + nib b m) * 50000| ≤ 13100000 := abs_le.mpr (by omega)
  exact (abs_tdiv_le _ _).trans hscaled

theorem hresInt_toInt {x : Int} (h : |x| ≤ 250019840) : (hresInt x).toInt = x := by
  obtain ⟨hlo, hhi⟩ := abs_le.mp h
  exact BitVec.toInt_ofInt_eq_self (by decide) (by omega) (by omega)

theorem hresNat_toNat {x : Nat} (h : x < 2 ^ 32) : (hresNat x).toNat = x := by
  rw [hresNat, BitVec.toNat_ofNat, Nat.mod_eq_of_lt h]

/-- A result below 2^31 reads the same signed as unsigned. -/
theorem hresNat_toInt {x : Nat} (h : x < 2 ^ 31) : (hresNat x).toInt = x := by
  have hnat : (hresNat x).toNat = x := hresNat_toNat (by omega)
  rw [BitVec.toInt_eq_toNat_of_lt (by omega), hnat]

/-! ### The nibble's bits -/

/-- SEXT sign-extends the high nibble. -/
theorem nib_sext_eq_extract (b : Byte) : nib b .sext = (b.extractLsb' 4 4).toInt := by
  rw [nib_sext_eq_ediv, BitVec.toInt_eq_toNat_cond, BitVec.toInt_eq_toNat_cond, BitVec.extractLsb'_toNat,
    Nat.shiftRight_eq_div_pow]
  omega

theorem toInt_neg_iff_sign (b : Byte) : b.toInt < 0 ↔ b.getLsbD 7 = true := by
  rw [← BitVec.msb_eq_getLsbD_last, BitVec.toInt_neg_iff, BitVec.msb_eq_true_iff_two_mul_ge]

/-- The low nibble is the remainder by 16. -/
theorem toInt_emod_sixteen_eq_zero_iff (b : Byte) : b.toInt % 16 = 0 ↔ b.extractLsb' 0 4 = 0 := by
  rw [← BitVec.toNat_inj, BitVec.extractLsb'_toNat, BitVec.toInt_eq_toNat_cond, Nat.shiftRight_zero]
  change _ ↔ b.toNat % 16 = 0
  omega

/-! ### The statements -/

/-- Settles O50: CDIV is SEXT, but for a negative byte whose low nibble is not 0. -/
theorem nibbleModes : Obligations.NibbleModes := by
  refine ⟨fun b => ⟨rfl, rfl, nib_sext_eq_extract b, nib_range b .sext, nib_range b .cdiv, ?_⟩,
    rfl, rfl, rfl, rfl, rfl⟩
  simp only [nib_cdiv_eq, toInt_neg_iff_sign, ne_eq, toInt_emod_sixteen_eq_zero_iff]

/-- Settles O48: the division by 122 undoes the multiplication, and its remainder is below 122. -/
theorem voltageScaleInverse : Obligations.VoltageScaleInverse := by
  refine ⟨fun code _ => ?_, fun x _ => ?_⟩
  · rw [fdiv, Int.fdiv_eq_ediv_of_nonneg _ (by decide), adc2mv10, Nat.cast_mul]
    exact Int.mul_ediv_cancel_left _ (by decide)
  · rw [adc2mv10, v2adc, adcScale]
    omega

/-- Settles O49: each range from its operands' ranges. -/
theorem decoderResultsFit : Obligations.DecoderResultsFit := by
  refine ⟨fun w b => abs_currentResult_le w (rsEff b), fun v b c m hv => abs_limitResult_le hv b m (rsEff c),
    fun x => hresInt_toInt, fun hi lo => ⟨cellRaw_le hi lo, ?_⟩, fun code hcode => ?_, rsEff_range⟩
  · rw [threshCode_eq_cellRaw]
    exact cellRaw_le hi lo
  · have hvolt : 122 * code ≤ 999302 := by omega
    exact ⟨hresNat_toInt (by omega), hresNat_toNat (x := 122 * code) (by omega),
      hresNat_toInt (x := 122 * code) (by omega), hvolt⟩

end Sys2Proof.Machine
end

section
/-! The decoders of chip registers (43_measure R143, R144): a pair of registers read low byte first, then CELLV and CURR
from there. -/

namespace Sys2Proof.Machine

section
variable {s : State} {need : Need} {reg reg0 reg1 : Byte} {a b : BusAnswer} {r : List BusAnswer} {ops : List MicroOp}

/-! ### The computing lines -/

/-- A command whose operands lie in its domain goes on with its second line (60_exceptions R171). -/
theorem runProgram_inDomain {d : Bool} (hd : d = true) (hs : s.atStart) (hp : prologue true need s = .ok s) :
    runProgram (.compute (prologue d need) :: ops) s = .next (runOps ops (s.setPos 1)) :=
  runProgram_admitted hs (hd ▸ hp)

/-- A line that sets the temporaries. -/
theorem runOps_temp {f : State → State} {t : Temps} (hf : f s = s.setTmp t) (h : s.host = []) :
    runOps (act f :: ops) s = runOps ops { s with tmp := t, pos := s.pos + 1 } := by
  rw [runOps_act (by rw [hf]; exact h), hf]
  rfl

/-- The last lines of a decoder: HRES1 and HRES0 from the temporaries, and finish. -/
theorem runOps_results_hres1_hres0 (x1 x0 : Temps → Word32) (h : s.host = []) :
    runOps [act fun s => s.setHres1 (x1 s.tmp), act fun s => s.setHres0 (x0 s.tmp), .finish] s = { s with
      hres1 := x1 s.tmp, hres0 := x0 s.tmp, hstat := s.hstat.finished, pos := s.pos + 2 } := by
  refine Eq.trans (runOps_act h) ?_
  refine Eq.trans (runOps_act h) ?_
  exact runOps_finish h

/-- The same with HRES0 first. -/
theorem runOps_results_hres0_hres1 (x0 x1 : Temps → Word32) (h : s.host = []) :
    runOps [act fun s => s.setHres0 (x0 s.tmp), act fun s => s.setHres1 (x1 s.tmp), .finish] s = { s with
      hres0 := x0 s.tmp, hres1 := x1 s.tmp, hstat := s.hstat.finished, pos := s.pos + 2 } := by
  refine Eq.trans (runOps_act h) ?_
  refine Eq.trans (runOps_act h) ?_
  exact runOps_finish h

/-! ### Plain registers -/

/-- A read of any other register than the EEPROM data leaves HSTAT (10_state R29). -/
theorem Hstat.afterRead_of_plain (h : Hstat) (hlo : reg ≠ regEeDataLo) (hhi : reg ≠ regEeDataHi) :
    h.afterRead reg = h := if_neg (not_or.mpr ⟨hlo, hhi⟩)

/-- CELLV's registers end below the EEPROM data's. -/
theorem afterRead_cell (h : Hstat) {sel : Byte} (hsel : sel.toNat ≤ 12) :
    h.afterRead (cellLoReg sel) = h ∧ h.afterRead (cellHiReg sel) = h := by
  refine ⟨h.afterRead_of_plain ?_ ?_, h.afterRead_of_plain ?_ ?_⟩ <;> simp only [cellLoReg, cellHiReg] <;> bv_omega

/-- The prologue and the reads of two registers that HSTAT does not show, low byte first (40_bus R103). -/
theorem runProgram_live_readLoHi (hs : s.atStartLive) (hc : s.chipIn = a :: b :: r) (ha : answered a = true)
    (hb : answered b = true) (h0 : s.hstat.afterRead reg0 = s.hstat) (h1 : s.hstat.afterRead reg1 = s.hstat) :
    runProgram (.compute (prologue true need) :: .busR reg0 storeLo :: .busR reg1 storeHi :: ops) s =
      .next (runOps ops { s with
        tmp := { s.tmp with lo := a.data, hi := b.data }, pos := 3, chipIn := r
        trace := s.trace ++ [.busR s.hcfg.devaddr reg0, .busR s.hcfg.devaddr reg1] }) := by
  have ⟨⟨_, hhost⟩, _⟩ := hs
  refine (runProgram_live_read (fun x t => { t with lo := x }) hs hc ha).trans (congrArg _ ?_)
  rw [h0, runOps_busR (by rw [busRead_of_cons rfl]; exact hhost) rfl hb, busRead_of_cons rfl, h1]
  simp only [storeHi, State.bump, State.setPos, State.setTmp, List.append_assoc, List.cons_append, List.nil_append]

end

/-! ### The statements -/

/-- Settles O40: the two reads, then the code, its voltage and finish. -/
theorem cellvDecodesVoltage : Obligations.CellvDecodesVoltage := by
  intro s sel lo hi rest hs hsel hc hlo hhi
  have ⟨⟨_, hhost⟩, _⟩ := hs
  have hok : cellOk sel = true := decide_eq_true (Nat.lt_succ_of_le hsel)
  obtain ⟨hreg0, hreg1⟩ := afterRead_cell s.hstat hsel
  simp only [← cellRaw_eq]
  rw [← hresNat, ← hresInt_natCast]
  change runProgram (cellvProgram sel) s = _
  rw [cellvProgram, hok]
  refine (runProgram_live_readLoHi hs hc hlo hhi hreg0 hreg1).trans (congrArg _ ?_)
  refine Eq.trans (runOps_temp rfl hhost) ?_
  exact runOps_results_hres1_hres0 (fun t => hresInt t.raw) (fun t => hresNat (adc2mv10 t.raw.toNat)) hhost

/-- Settles O41: the two reads, EeRead of the resistor's word, then the division and finish. -/
theorem currDecodesCurrent : Obligations.CurrDecodesCurrent := by
  intro s lo hi w rest hs hc hlo hhi hw raw t
  have ⟨⟨_, hhost⟩, _⟩ := hs
  refine (runProgram_live_readLoHi hs hc hlo hhi rfl rfl).trans (congrArg _ ?_)
  refine Eq.trans (runOps_temp rfl hhost) ?_
  refine Eq.trans (runOps_eeReadLive (g0 := fun x t => { t with b0 := x }) (g1 := fun x t => { t with b1 := x })
    hhost rfl hw) ?_
  refine Eq.trans (runOps_temp rfl hhost) ?_
  exact runOps_results_hres1_hres0 (fun t => (wordOf t.hi t.lo).signExtend 32)
    (fun t => hresInt (currentResult t.raw t.t)) hhost

end Sys2Proof.Machine
end

section
/-! The decoders of EEPROM words (43_measure R145, R147, R148): RSENSE, THRESH and LIMIT on either substrate. The lines
after the words' reads are the same on both. -/

namespace Sys2Proof.Machine

/-! ### The addresses -/

theorem threshAddr_toNat {sel : Byte} (h : sel.toNat ≤ 3) : (threshAddr sel).toNat = 0x4A + 2 * sel.toNat := by
  simp only [threshAddr]
  bv_omega

theorem offsetAddr_toNat (sel : Byte) : (offsetAddr sel).toNat = if sel = 0 then 0x02 else 0x04 := by
  unfold offsetAddr
  split <;> rfl

section
variable {s : State} {subst : Substrate} {sel : Byte} {lsb wm1 : BitVec 4}

/-! ### The prologues -/

/-- RSENSE goes on with EeRead on the current substrate. -/
theorem exec_rsense (hs : s.atStart) (hsubst : s.hcfg.subst = subst) (hready : s.substrateReady) :
    exec .rsense s = .next (runOps (rsenseProgram subst).tail (s.setPos 1)) := by
  rw [← hsubst]
  exact runProgram_admitted hs (prologue_ok_either hready)

/-- THRESH goes on with its address. -/
theorem exec_thresh (hsel : sel.toNat ≤ 3) (hs : s.atStart) (hsubst : s.hcfg.subst = subst)
    (hready : s.substrateReady) :
    exec (.thresh sel) s = .next (runOps (threshProgram subst sel).tail (s.setPos 1)) := by
  have hok : threshOk sel = true := decide_eq_true hsel
  rw [← hsubst]
  exact runProgram_inDomain hok hs (prologue_ok_either hready)

/-- LIMIT goes on with its field's width. -/
theorem exec_limit (hok : limitOk sel lsb wm1 = true) (hs : s.atStart) (hsubst : s.hcfg.subst = subst)
    (hready : s.substrateReady) :
    exec (.limit sel lsb wm1) s = .next (runOps (limitProgram subst sel lsb wm1).tail (s.setPos 1)) := by
  rw [← hsubst]
  exact runProgram_inDomain hok hs (prologue_ok_either hready)

theorem limitOk_of_domain (hsel : sel.toNat ≤ 1) (hwm1 : wm1.toNat ≤ 7) (hfield : lsb.toNat + wm1.toNat + 1 ≤ 16) :
    limitOk sel lsb wm1 = true := by
  have hend : lsb.toNat + fieldWidth wm1 ≤ 16 := hfield
  simp [limitOk, fieldOk, hsel, hwm1, hend]

/-! ### The lines after the reads -/

/-- RSENSE's results from b0. -/
theorem runOps_rsenseResults (h : s.host = []) :
    runOps [act fun s => s.setHres1 (s.tmp.b0.setWidth 32), act fun s => s.setHres0 (hresNat (rsEff s.tmp.b0)),
      .finish] s = { s with
        hres1 := s.tmp.b0.setWidth 32, hres0 := hresNat (rsEff s.tmp.b0), hstat := s.hstat.finished
        pos := s.pos + 2 } :=
  runOps_results_hres1_hres0 (fun t => t.b0.setWidth 32) (fun t => hresNat (rsEff t.b0)) h

/-- THRESH's results from b1 and b0. -/
theorem runOps_threshResults (h : s.host = []) :
    runOps [act fun s => storeCode (threshCode s.tmp.b1 s.tmp.b0) s, act fun s => s.setHres1 (hresNat s.tmp.code),
      act fun s => s.setHres0 (hresNat (adc2mv10 s.tmp.code)), .finish] s = { s with
        hres1 := hresNat (threshCode s.tmp.b1 s.tmp.b0), hres0 := hresNat (adc2mv10 (threshCode s.tmp.b1 s.tmp.b0))
        hstat := s.hstat.finished, tmp := { s.tmp with code := threshCode s.tmp.b1 s.tmp.b0 }
        pos := s.pos + 3 } := by
  refine Eq.trans (runOps_temp rfl h) ?_
  exact runOps_results_hres1_hres0 (fun t => hresNat t.code) (fun t => hresNat (adc2mv10 t.code)) h

/-- The state LIMIT ends in, from the field's value, the offset and the resistor. -/
def State.limited (s : State) (v : Nat) (o : Int) (t : Nat) : State :=
  { s with
    hres0 := hresInt (limitResult v o t), hres1 := hresInt (limitResult (2 ^ s.tmp.W - 1) o t)
    hstat := s.hstat.finished, tmp := { s.tmp with v := v, o := o, t := t }, pos := s.pos + 5 }

/-- LIMIT's results from the three words. -/
theorem runOps_limitResults (h : s.host = []) :
    runOps [act fun s => storeV (fieldNat (wordOf s.tmp.l1 s.tmp.l0) lsb.toNat s.tmp.W) s,
      act fun s => storeO (nib s.tmp.o0 s.hcfg.nibmode) s, act fun s => storeT (rsEff s.tmp.r0) s,
      act fun s => s.setHres0 (hresInt (limitResult s.tmp.v s.tmp.o s.tmp.t)),
      act fun s => s.setHres1 (hresInt (limitResult (2 ^ s.tmp.W - 1) s.tmp.o s.tmp.t)), .finish] s =
      s.limited (fieldNat (wordOf s.tmp.l1 s.tmp.l0) lsb.toNat s.tmp.W) (nib s.tmp.o0 s.hcfg.nibmode)
        (rsEff s.tmp.r0) := by
  refine Eq.trans (runOps_temp rfl h) ?_
  refine Eq.trans (runOps_temp rfl h) ?_
  refine Eq.trans (runOps_temp rfl h) ?_
  exact runOps_results_hres0_hres1 (fun t => hresInt (limitResult t.v t.o t.t))
    (fun t => hresInt (limitResult (2 ^ t.W - 1) t.o t.t)) h

/-! ### LIMIT's three words -/

/-- LIMIT's temporaries once its three words are read, each as its bytes b0 and b1. -/
def Temps.limitWords (t : Temps) (l0 l1 o0 o1 r0 r1 : Byte) : Temps :=
  { t with l0 := l0, l1 := l1, o0 := o0, o1 := o1, r0 := r0, r1 := r1 }

/-- The words' reads on the live device. -/
theorem runOps_limitWords_live {rest : List MicroOp} {x y z : WordAnswers} {r : List BusAnswer} (h : s.host = [])
    (hc : s.chipIn = x.list ++ y.list ++ z.list ++ r) (hx : x.good) (hy : y.good) (hz : z.good) :
    runOps (eeReadLive eeLimitWord storeL0 storeL1 ++ eeReadLive (offsetAddr sel) storeO0 storeO1 ++
      eeReadLive eeSenseResistor storeR0 storeR1 ++ rest) s = runOps rest { s with
        hstat := { s.hstat with phase := .idle, lastmode := codeEeLock }
        tmp := { s.tmp with s := z.p5.data }.limitWords x.lo.data x.hi.data y.lo.data y.hi.data z.lo.data z.hi.data
        pollcnt := 1, pos := s.pos + 45, chipIn := r
        trace := s.trace ++ eeReadReqs s.hcfg.devaddr eeLimitWord ++ eeReadReqs s.hcfg.devaddr (offsetAddr sel) ++
          eeReadReqs s.hcfg.devaddr eeSenseResistor } := by
  rw [List.append_assoc, List.append_assoc] at hc ⊢
  refine Eq.trans (runOps_eeReadLive (g0 := fun x t => { t with l0 := x }) (g1 := fun x t => { t with l1 := x })
    h hc hx) ?_
  dsimp only [State.afterLive]
  refine Eq.trans (runOps_eeReadLive (g0 := fun x t => { t with o0 := x }) (g1 := fun x t => { t with o1 := x })
    h rfl hy) ?_
  dsimp only [State.afterLive]
  exact runOps_eeReadLive (g0 := fun x t => { t with r0 := x }) (g1 := fun x t => { t with r1 := x }) h rfl hz

/-- The words' reads on the file substrate. -/
theorem runOps_limitWords_file {rest : List MicroOp} {x y z : FileWord} {r : List FileAnswer} (h : s.host = [])
    (hc : s.fileIn = x.list ++ y.list ++ z.list ++ r) (hx : x.good) (hy : y.good) (hz : z.good) :
    runOps (eeReadFile eeLimitWord storeL0 storeL1 ++ eeReadFile (offsetAddr sel) storeO0 storeO1 ++
      eeReadFile eeSenseResistor storeR0 storeR1 ++ rest) s = runOps rest { s with
        tmp := { s.tmp with n := imageSize, r := [z.b0, z.b1] }.limitWords x.b0 x.b1 y.b0 y.b1 z.b0 z.b1
        pos := s.pos + 12, fileIn := r
        trace :=
          s.trace ++ (eeFileReqs eeLimitWord ++ (eeFileReqs (offsetAddr sel) ++ eeFileReqs eeSenseResistor)) } := by
  rw [List.append_assoc, List.append_assoc] at hc ⊢
  refine Eq.trans (runOps_eeReadFile (g0 := fun x t => { t with l0 := x }) (g1 := fun x t => { t with l1 := x })
    h hc hx) ?_
  dsimp only [State.afterFile]
  refine Eq.trans (runOps_eeReadFile (g0 := fun x t => { t with o0 := x }) (g1 := fun x t => { t with o1 := x })
    h rfl hy) ?_
  simp only [State.afterFile, List.append_assoc]
  refine Eq.trans (runOps_eeReadFile (g0 := fun x t => { t with r0 := x }) (g1 := fun x t => { t with r1 := x })
    h rfl hz) ?_
  simp only [State.afterFile, List.append_assoc]
  rfl

end

/-! ### The statements -/

/-- Settles O42: EeRead on each substrate, then the results. -/
theorem rsenseReadsResistor : Obligations.RsenseReadsResistor := by
  intro s
  simp only [← hresNat_rsEff]
  refine ⟨fun w rest hs hc hw => ?_, fun f rest hs hc hf => ?_⟩
  · obtain ⟨hstart, hsubst, hready⟩ := hs
    have ⟨_, hhost⟩ := hstart
    refine (exec_rsense hstart hsubst fun _ => hready).trans (congrArg _ ?_)
    refine Eq.trans (runOps_eeReadLive (g0 := fun x t => { t with b0 := x }) (g1 := fun x t => { t with b1 := x })
      hhost hc hw) ?_
    exact runOps_rsenseResults hhost
  · obtain ⟨hstart, hsubst⟩ := hs
    have ⟨_, hhost⟩ := hstart
    refine (exec_rsense hstart hsubst (substrateReady_of_file hsubst)).trans (congrArg _ ?_)
    refine Eq.trans (runOps_eeReadFile (g0 := fun x t => { t with b0 := x }) (g1 := fun x t => { t with b1 := x })
      hhost hc hf) ?_
    exact runOps_rsenseResults hhost

/-- Settles O44: the address, EeRead on each substrate, then the results. -/
theorem threshDecodesVoltage : Obligations.ThreshDecodesVoltage := by
  intro s sel hsel
  simp only [← threshCode_eq, ← threshAddr_toNat hsel]
  refine ⟨fun w rest hs hc hw => ?_, fun f rest hs hc hf => ?_⟩
  · obtain ⟨hstart, hsubst, hready⟩ := hs
    have ⟨_, hhost⟩ := hstart
    refine (exec_thresh hsel hstart hsubst fun _ => hready).trans (congrArg _ ?_)
    refine Eq.trans (runOps_temp rfl hhost) ?_
    refine Eq.trans (runOps_eeReadLive (g0 := fun x t => { t with b0 := x }) (g1 := fun x t => { t with b1 := x })
      hhost hc hw) ?_
    exact runOps_threshResults hhost
  · obtain ⟨hstart, hsubst⟩ := hs
    have ⟨_, hhost⟩ := hstart
    refine (exec_thresh hsel hstart hsubst (substrateReady_of_file hsubst)).trans (congrArg _ ?_)
    refine Eq.trans (runOps_temp rfl hhost) ?_
    refine Eq.trans (runOps_eeReadFile (g0 := fun x t => { t with b0 := x }) (g1 := fun x t => { t with b1 := x })
      hhost hc hf) ?_
    exact runOps_threshResults hhost

/-- Settles O43: the width, three EeReads on each substrate, then the results. -/
theorem limitDecodesCurrentLimit : Obligations.LimitDecodesCurrentLimit := by
  intro s sel lsb wm1 hsel hwm1 hfield W value offset ohms limit
  have hok : limitOk sel lsb wm1 = true := limitOk_of_domain hsel hwm1 hfield
  have hvalue (w : Word16) : value w = fieldNat w lsb.toNat W := (fieldNat_eq w lsb.toNat W).symm
  have hoffset (b : Byte) : offset b = nib b s.hcfg.nibmode := (nib_eq b s.hcfg.nibmode).symm
  simp only [hvalue, hoffset]
  refine ⟨fun x y z rest hs hc hx hy hz => ?_, fun x y z rest hs hc hx hy hz => ?_⟩
  · obtain ⟨hstart, hsubst, hready⟩ := hs
    have ⟨_, hhost⟩ := hstart
    refine (exec_limit hok hstart hsubst fun _ => hready).trans (congrArg _ ?_)
    refine Eq.trans (runOps_temp rfl hhost) ?_
    refine Eq.trans (runOps_limitWords_live hhost hc hx hy hz) ?_
    exact runOps_limitResults hhost
  · obtain ⟨hstart, hsubst⟩ := hs
    have ⟨_, hhost⟩ := hstart
    rw [← offsetAddr_toNat]
    refine (exec_limit hok hstart hsubst (substrateReady_of_file hsubst)).trans (congrArg _ ?_)
    refine Eq.trans (runOps_temp rfl hhost) ?_
    refine Eq.trans (runOps_limitWords_file hhost hc hx hy hz) ?_
    exact runOps_limitResults hhost

end Sys2Proof.Machine
end

section
/-! The conversions and the calibration writes (43_measure R149-R152): ADC2MV and V2ADC, which only compute, and SETRS and
SETVL, which store into IMG. -/

namespace Sys2Proof.Machine

/-! ### SETVL's two bytes (43_measure R152) -/

/-- The kept bits and the code's low five do not overlap. -/
theorem setvlLo_toNat (old : Byte) (code : Nat) : (setvlLo old code).toNat = code % 32 * 8 + old.toNat % 8 := by
  have hkept : old.toNat &&& 7 = old.toNat % 8 := Nat.and_two_pow_sub_one_eq_mod old.toNat 3
  have hfive : code &&& 31 = code % 32 := Nat.and_two_pow_sub_one_eq_mod code 5
  have hbyte : (code % 32) <<< 3 % 2 ^ 8 = (code % 32) <<< 3 := by
    rw [Nat.shiftLeft_eq]
    omega
  have hlow : old.toNat % 8 < 2 ^ 3 := Nat.mod_lt _ (by decide)
  rw [setvlLo, BitVec.toNat_or, BitVec.toNat_and, BitVec.toNat_ofNat, hfive, hbyte]
  change old.toNat &&& 7 ||| _ = _
  rw [hkept, Nat.or_comm, ← Nat.shiftLeft_add_eq_or_of_lt hlow, Nat.shiftLeft_eq]

theorem setvlHi_toNat {code : Nat} (h : code ≤ 8191) : (setvlHi code).toNat = code / 32 := by
  rw [setvlHi, BitVec.toNat_ofNat, Nat.shiftRight_eq_div_pow]
  omega

/-- SETVL's address is THRESH's for the same selector. -/
theorem threshAddr_setWidth_toNat (sel : BitVec 2) : (threshAddr (sel.setWidth 8)).toNat = 0x4A + 2 * sel.toNat := by
  have hsel : (sel.setWidth 8).toNat = sel.toNat := BitVec.toNat_setWidth_of_le (by decide)
  rw [threshAddr_toNat (by omega), hsel]

/-- Two bytes stored at an index of IMG. -/
theorem Memory.read_writeAll_pair (m : Memory) {a : Nat} (x y : Byte) (j : Nat) (h : a + 1 < imageSize) :
    (m.writeAll a [x, y]).read j = if j = a then some x else if j = a + 1 then some y else m.read j := by
  change ((m.write a x).write (a + 1) y).read j = _
  rw [Memory.read_write _ _ _ h, Memory.read_write _ _ _ (Nat.lt_of_succ_lt h)]
  rcases eq_or_ne j (a + 1) with rfl | hj
  · simp
  · simp [hj]

/-! ### SETVL's lines -/

section
variable {s : State} {sel : BitVec 2} {val : BitVec 20}

/-- Where SETVL tests its low byte: the code and the address are computed. -/
def State.setvlReady (s : State) (sel : BitVec 2) (val : BitVec 20) : State :=
  { s with tmp := { s.tmp with code := v2adc val.toNat, a := threshAddr (sel.setWidth 8) }, pos := 3 }

theorem exec_setvl (hs : s.atStart) (hval : val.toNat < 999424) :
    exec (.setvl sel val) s = .next (runOps ((setvlProgram sel val).drop 3) (s.setvlReady sel val)) := by
  have ⟨_, hhost⟩ := hs
  refine (runProgram_inDomain (voltageOk_of_lt hval) hs prologue_ok_none).trans (congrArg _ ?_)
  refine Eq.trans (runOps_temp rfl hhost) ?_
  exact runOps_temp rfl hhost

end

/-! ### The statements -/

/-- Settles O45: every line is a computation. -/
theorem voltageConversions : Obligations.VoltageConversions := by
  intro s hs
  have ⟨_, hhost⟩ := hs
  refine ⟨fun code => ?_, fun x hx => ?_⟩
  · refine (runProgram_admitted hs prologue_ok_none).trans (congrArg _ ?_)
    exact runOps_results_hres1_hres0 (fun _ => code.setWidth 32) (fun _ => hresNat (adc2mv10 code.toNat)) hhost
  · refine (runProgram_inDomain (voltageOk_of_lt hx) hs prologue_ok_none).trans (congrArg _ ?_)
    refine Eq.trans (runOps_temp rfl hhost) ?_
    exact runOps_results_hres0_hres1 (fun t => hresNat t.code) (fun t => hresNat (adc2mv10 t.code)) hhost

/-- Settles O46: one byte goes to IMG. -/
theorem setrsStoresResistor : Obligations.SetrsStoresResistor := by
  intro s t hs hlo hhi
  have ⟨_, hhost⟩ := hs
  have hok : resistorOk t = true := by simp [resistorOk, hlo, hhi]
  have hbyte : t.extractLsb' 0 8 = t.setWidth 8 := (BitVec.setWidth_eq_extractLsb' (by decide)).symm
  refine ⟨s.img.write 0x34 (t.extractLsb' 0 8), ?_, fun j => hbyte ▸ Memory.read_write _ _ _ (by decide)⟩
  refine (runProgram_inDomain hok hs prologue_ok_none).trans (congrArg _ ?_)
  refine Eq.trans (runOps_store (fun _ => 0x34) (fun _ => [t.extractLsb' 0 8]) (fun _ => t.setWidth 32) hhost) ?_
  exact runOps_finish hhost

/-- Settles O47: a valid low byte keeps its bits 2:0 and both bytes go to IMG; an invalid one ends the command. -/
theorem setvlStoresThreshold : Obligations.SetvlStoresThreshold := by
  intro s sel val hs hval
  have ⟨_, hhost⟩ := hs
  have haddr := threshAddr_setWidth_toNat sel
  have haddr' : BitVec.ofNat 8 (0x4A + 2 * sel.toNat) = threshAddr (sel.setWidth 8) := by
    rw [← haddr, BitVec.ofNat_toNat, BitVec.setWidth_eq]
  rw [haddr']
  refine ⟨fun old hold => ?_, fun hinvalid => ?_⟩
  · have hvalid : s.img.valid (threshAddr (sel.setWidth 8)).toNat = true := by
      rw [haddr]
      exact (Memory.valid_iff _ _).mpr ⟨old, hold⟩
    have hbyte : s.imgByte (threshAddr (sel.setWidth 8)).toNat = old := by
      rw [haddr]
      exact State.imgByte_of_read hold
    have hlo := setvlLo_toNat old (v2adc val.toNat)
    have hhi := setvlHi_toNat (v2adc_le hval)
    refine ⟨_, setvlLo old (v2adc val.toNat), setvlHi (v2adc val.toNat), (exec_setvl hs hval).trans (congrArg _ ?_),
      ?_, ?_, fun j => Memory.read_writeAll_pair s.img _ _ j ?_⟩
    · rw [← hbyte, ← haddr]
      refine Eq.trans (runOps_require_ok hvalid hhost) ?_
      refine Eq.trans (runOps_temp rfl hhost) ?_
      refine Eq.trans (runOps_temp rfl hhost) ?_
      refine Eq.trans (runOps_store (fun t => t.a.toNat) (fun t => [t.lo, t.hi]) (fun t => hresNat t.code) hhost) ?_
      exact runOps_finish hhost
    · rw [hlo, hhi, ← v2adc]
      omega
    · rw [hlo]
      omega
    · rw [imageSize]
      omega
  · rw [← haddr] at hinvalid
    refine (exec_setvl hs hval).trans (congrArg _ ?_)
    exact runOps_require_fails hinvalid hhost

end Sys2Proof.Machine
end

section
/-! The bit-field unpacker and the status decoder (44_unpack R161-R164, 45_status R167): the field of a word as plain
arithmetic, the decoders' codes as such fields, and UNPACK, SEXT4 and DECAUTH from their prologues on. -/

namespace Sys2Proof.Machine

/-! ### The field as plain arithmetic (44_unpack R161) -/

theorem field_unsigned (w : Word16) (lsb W : Nat) : field w lsb W false = hresNat (fieldNat w lsb W) :=
  BitVec.eq_of_toNat_eq (BitVec.toNat_setWidth ..)

/-- A signed field whose top bit k is set lies 2^(k+1) below its unsigned reading. -/
theorem field_signed (w : Word16) (lsb k : Nat) :
    field w lsb (k + 1) true = if 2 ^ k ≤ fieldNat w lsb (k + 1)
      then hresInt (fieldNat w lsb (k + 1) - 2 ^ (k + 1)) else hresNat (fieldNat w lsb (k + 1)) := by
  change hresInt (w.extractLsb' lsb (k + 1)).toInt = _
  rw [BitVec.toInt_eq_toNat_cond, ← fieldNat]
  by_cases hsign : 2 ^ k ≤ fieldNat w lsb (k + 1)
  · rw [if_neg (by omega), if_pos hsign, Nat.cast_pow, Nat.cast_ofNat]
  · rw [if_pos (by omega), if_neg hsign, hresInt_natCast]

/-- Both readings in one equation. -/
theorem field_eq (w : Word16) (lsb k : Nat) (sgn : Bool) :
    field w lsb (k + 1) sgn = if sgn = true ∧ 2 ^ k ≤ fieldNat w lsb (k + 1)
      then hresInt (fieldNat w lsb (k + 1) - 2 ^ (k + 1)) else hresNat (fieldNat w lsb (k + 1)) := by
  cases sgn with
  | false => rw [field_unsigned, if_neg fun h => Bool.false_ne_true h.1]
  | true => simp only [field_signed, true_and]

/-! ### The decoders' codes as fields (44_unpack R164) -/

theorem wordOf_toNat (b1 b0 : Byte) : (wordOf b1 b0).toNat = b1.toNat * 256 + b0.toNat := by
  rw [wordOf, BitVec.toNat_append, ← Nat.shiftLeft_add_eq_or_of_lt b0.isLt, Nat.shiftLeft_eq]

/-- A 13-bit code is bits 15:3 of its word. -/
theorem cellRaw_eq_fieldNat (b1 b0 : Byte) : cellRaw b1 b0 = fieldNat (wordOf b1 b0) 3 13 := by
  rw [cellRaw_eq, fieldNat_eq, wordOf_toNat]
  omega

/-- SEXT is the arithmetic shift by 4. -/
theorem nib_sext_eq_sshiftRight (b : Byte) : nib b .sext = (b.sshiftRight 4).toInt := by
  rw [nib_sext_eq_ediv, BitVec.toInt_sshiftRight, Int.shiftRight_eq_div_pow]
  rfl

/-! ### UNPACK's lines -/

theorem unpackOk_of_domain {ea : Byte} {lsb wm1 : BitVec 4} (hea : eaddrOk ea = true)
    (hfield : lsb.toNat + wm1.toNat + 1 ≤ 16) : (eaddrOk ea && fieldOk lsb wm1) = true := by
  have hend : lsb.toNat + fieldWidth wm1 ≤ 16 := hfield
  simp [hea, fieldOk, hend]

section
variable {s : State} {subst : Substrate} {ea : Byte} {lsb wm1 : BitVec 4} {sgn : Bool}

/-- UNPACK goes on with EeRead on the current substrate. -/
theorem exec_unpack (hok : (eaddrOk ea && fieldOk lsb wm1) = true) (hs : s.atStart) (hsubst : s.hcfg.subst = subst)
    (hready : s.substrateReady) :
    exec (.unpack ea lsb wm1 sgn) s = .next (runOps (unpackProgram subst ea lsb wm1 sgn).tail (s.setPos 1)) := by
  rw [← hsubst]
  exact runProgram_inDomain hok hs (prologue_ok_either hready)

/-- UNPACK's results from b1 and b0. -/
theorem runOps_unpackResults (h : s.host = []) :
    runOps [act fun s => storeW (wordOf s.tmp.b1 s.tmp.b0) s, act fun s => s.setHres1 (s.tmp.w.setWidth 32),
      act fun s => s.setHres0 (field s.tmp.w lsb.toNat (fieldWidth wm1) sgn), .finish] s = { s with
        hres1 := (wordOf s.tmp.b1 s.tmp.b0).setWidth 32
        hres0 := field (wordOf s.tmp.b1 s.tmp.b0) lsb.toNat (fieldWidth wm1) sgn
        hstat := s.hstat.finished, tmp := { s.tmp with w := wordOf s.tmp.b1 s.tmp.b0 }, pos := s.pos + 3 } := by
  refine Eq.trans (runOps_temp rfl h) ?_
  exact runOps_results_hres1_hres0 (fun t => t.w.setWidth 32) (fun t => field t.w lsb.toNat (fieldWidth wm1) sgn) h

end

/-! ### DECAUTH's class (42_auth R133) -/

theorem authClass_setWidth (b : Byte) :
    (authClass b).toBits.setWidth 32 = if b.getLsbD 6 then (1 : Word32) else if b.getLsbD 5 then 3 else 2 := by
  unfold authClass
  split_ifs <;> rfl

/-! ### The statements -/

/-- Settles O51: EeRead on each substrate, then the results, whose field is plain arithmetic. -/
theorem unpackExtractsField : Obligations.UnpackExtractsField := by
  intro s ea lsb wm1 sgn hea hfield get
  have hget (w : Word16) : get w = field w lsb.toNat (fieldWidth wm1) sgn := by
    rw [fieldWidth, field_eq, fieldNat_eq]
    rfl
  have hok := unpackOk_of_domain hea hfield
  simp only [hget]
  refine ⟨fun w rest hs hc hw => ?_, fun f rest hs hc hf => ?_⟩
  · obtain ⟨hstart, hsubst, hready⟩ := hs
    have ⟨_, hhost⟩ := hstart
    refine (exec_unpack hok hstart hsubst fun _ => hready).trans (congrArg _ ?_)
    refine Eq.trans (runOps_eeReadLive (g0 := fun x t => { t with b0 := x }) (g1 := fun x t => { t with b1 := x })
      hhost hc hw) ?_
    exact runOps_unpackResults hhost
  · obtain ⟨hstart, hsubst⟩ := hs
    have ⟨_, hhost⟩ := hstart
    refine (exec_unpack hok hstart hsubst (substrateReady_of_file hsubst)).trans (congrArg _ ?_)
    refine Eq.trans (runOps_eeReadFile (g0 := fun x t => { t with b0 := x }) (g1 := fun x t => { t with b1 := x })
      hhost hc hf) ?_
    exact runOps_unpackResults hhost

/-- Settles O52: both codes are bits 15:3 of their word, and the nibble is bits 7:4. -/
theorem unpackerIdentities : Obligations.UnpackerIdentities := by
  intro b1 b0
  have hcell : hresNat (cellRaw b1 b0) = field (wordOf b1 b0) 3 13 false := by
    rw [field_unsigned, cellRaw_eq_fieldNat]
  have hnib : hresInt (nib b0 .sext) = field (wordOf 0 b0) 4 4 true := by
    have hlow : (wordOf 0 b0).extractLsb' 4 4 = b0.extractLsb' 4 4 :=
      BitVec.extractLsb'_append_eq_of_add_le (by decide)
    rw [nib_sext_eq_extract, ← hlow]
    rfl
  exact ⟨threshCode_eq_cellRaw b1 b0 ▸ hcell, hcell, hnib, nib_sext_eq_sshiftRight b0⟩

/-- Settles O53: every line is a computation, and none writes AUTHST. -/
theorem byteDecoders : Obligations.ByteDecoders := by
  intro s b hs
  have ⟨_, hhost⟩ := hs
  rw [← nib_eq, ← authClass_setWidth]
  constructor
  · refine (runProgram_admitted hs prologue_ok_none).trans (congrArg _ ?_)
    refine Eq.trans (runOps_act hhost) ?_
    refine Eq.trans (runOps_act hhost) ?_
    exact runOps_finish hhost
  · refine (runProgram_admitted hs prologue_ok_none).trans (congrArg _ ?_)
    exact runOps_results_hres0_hres1 (fun _ => (b &&& tagMask).setWidth 32)
      (fun _ => (authClass b).toBits.setWidth 32) hhost

end Sys2Proof.Machine
end

section
/-! The bus transactions of a command's lines (40_bus R103, R104): a command that does not need the live device has
none on the file substrate (41_eeprom R114, 60_exceptions R171). -/

namespace Sys2Proof.Machine

/-! ### One line -/

/-- The line is a bus transaction. -/
def MicroOp.usesBus : MicroOp → Bool
  | .poll | .busR _ _ | .busW _ _ => true
  | .compute _ | .fileSize | .fileRead _ _ | .fileWriteAll _ | .finish => false

/-- A request is a bus transaction exactly when its line is one. -/
theorem MicroOp.onBus_eq_usesBus {op : MicroOp} {u : State} {q : Request} (h : op.request? u = some q) :
    q.onBus = op.usesBus := by
  cases op with
  | compute | finish => cases h
  | poll | busR | busW | fileSize | fileRead | fileWriteAll =>
    cases h
    rfl

/-! ### Lines without a bus transaction -/

/-- No line is a bus transaction. -/
def BusFree (ops : List MicroOp) : Prop := ∀ op ∈ ops, op.usesBus = false

section
variable (ops ops' : List MicroOp)

@[simp] theorem busFree_nil : BusFree [] := List.forall_mem_nil _

@[simp] theorem busFree_cons (op : MicroOp) : BusFree (op :: ops) ↔ op.usesBus = false ∧ BusFree ops :=
  List.forall_mem_cons

@[simp] theorem busFree_append : BusFree (ops ++ ops') ↔ BusFree ops ∧ BusFree ops' := List.forall_mem_append

@[simp] theorem busFree_flatMap (l : List Nat) (f : Nat → List MicroOp) :
    BusFree (l.flatMap f) ↔ ∀ k ∈ l, BusFree (f k) := List.forall_mem_flatMap

end

@[simp] theorem usesBus_compute (f : State → Except ErrCode State) : (MicroOp.compute f).usesBus = false := rfl
@[simp] theorem usesBus_fileSize : MicroOp.fileSize.usesBus = false := rfl
@[simp] theorem usesBus_fileRead (off n : Nat) : (MicroOp.fileRead off n).usesBus = false := rfl
@[simp] theorem usesBus_fileWriteAll (bytes : State → List Byte) : (MicroOp.fileWriteAll bytes).usesBus = false := rfl
@[simp] theorem usesBus_finish : MicroOp.finish.usesBus = false := rfl
@[simp] theorem usesBus_act (f : State → State) : (act f).usesBus = false := rfl
@[simp] theorem usesBus_require (p : State → Bool) (code : ErrCode) : (require p code).usesBus = false := rfl

/-- EeRead on the file substrate asks the file port only (41_eeprom R114). -/
@[simp] theorem busFree_eeRead_file (a : Byte) (store0 store1 : Byte → State → State) :
    BusFree (eeRead .fileImage a store0 store1) := by
  simp [eeRead, eeReadFile, requireImageSize]

/-! ### The commands -/

/-- On the file substrate no line of a command that runs there is a bus transaction (60_exceptions R171). -/
theorem busFree_linesOf_file {i : Instr} (h : needOf i ≠ .live) : BusFree (linesOf i .fileImage) := by
  cases i with
  | rdreg | wrreg | chipid | reboot | wrword | lock | rewrite | cellv | curr => exact absurd rfl h
  | eeLock | eeAuth | eeWrite | eeErase | eeRead => exact absurd rfl h
  | loadimg | saveimg => simp [linesOf, loadimgProgram, saveimgProgram, requireImageSize, requireComplete]
  | adc2mv | v2adc | setrs | setvl | sext4 | decauth =>
    simp [linesOf, adc2mvProgram, v2adcProgram, setrsProgram, setvlProgram, sext4Program, decauthProgram]
  | rdword | rsense | limit | thresh | unpack =>
    simp [linesOf, rdwordProgram, rsenseProgram, limitProgram, threshProgram, unpackProgram]
  | rdimg => simp [linesOf, rdimgProgram, rdimgWord, enterWord, leaveLoop]

/-! ### The statement -/

/-- Settles O59: the line that issues the request belongs to an admitted command, which is not live-only there, so the
line is no bus transaction. -/
theorem fileSubstrateNeverUsesBus : Obligations.FileSubstrateNeverUsesBus := by
  intro s t r hinv hsubst h hmem
  obtain ⟨i, u, op, -, -, hlive, -, hop, hreq⟩ := hinv.step_request h hmem
  rw [hsubst] at hlive hop
  have hneed : needOf i ≠ .live := fun hi => absurd (hlive hi) (by decide)
  have hline : op ∈ linesOf i .fileImage := List.mem_of_getElem? hop
  exact (MicroOp.onBus_eq_usesBus hreq).trans (busFree_linesOf_file hneed op hline)

end Sys2Proof.Machine
end

section
/-! Checks 3 and 4 of the prologue (60_exceptions R171), and a NACK in the middle of RDWORD (R174, R175). -/

namespace Sys2Proof.Machine

section
variable {s : State} {need : Need}

/-! ### The prologue's refusals -/

/-- Check 3: a live-only command on the file substrate. -/
theorem prologue_wrongSubstrate (hneed : need = .live) (hsubst : s.hcfg.subst = .fileImage) :
    prologue true need s = .error .configError := by
  simp [prologue, hneed, hsubst]

/-- Check 4: a command that uses the bus while BUS_READY is 0. -/
theorem prologue_busNotReady (hneed : need ≠ .noSubstrate) (hsubst : s.hcfg.subst = .liveDevice)
    (hready : s.busReady = false) : prologue true need s = .error .transportUnavailable := by
  cases need with
  | noSubstrate => exact absurd rfl hneed
  | live | either => simp [prologue, Need.usesBus, hsubst, hready]

/-- A command in its domain that the prologue refuses ends at its first line (60_exceptions R171, R172). -/
theorem exec_refused {i : Instr} (hc : isControl i = false) (hs : s.atStart) (hwf : i.wellFormed = true)
    {code : ErrCode} (h : prologue true (needOf i) s = .error code) : exec i s = .next (s.raise code) := by
  obtain ⟨rest, hl⟩ := linesOf_first hc s.hcfg.subst
  rw [exec_eq_runProgram hc, hl, hwf]
  exact runProgram_refused hs h rest

/-! ### A read that is not acknowledged -/

/-- `Wait(); x <- BusR(reg)` without an acknowledge ends the command after the poll and the read (40_bus R103). -/
theorem runOps_waitRead_nack {reg : Byte} {store : Byte → State → State} {a b : BusAnswer} {r : List BusAnswer}
    {rest : List MicroOp} (h : s.host = []) (hc : s.chipIn = a :: b :: r) (ha : quiet a) (hb : answered b = false) :
    runOps (waitRead reg store ++ rest) s = { s with
      hstat := (s.hstat.afterRead reg).failed .transportNack, tmp := { s.tmp with s := a.data }, pollcnt := 1
      pos := s.pos + 2, chipIn := r
      trace := s.trace ++ [pollReq s.hcfg.devaddr, .busR s.hcfg.devaddr reg] } := by
  rw [waitRead, List.append_assoc, runOps_wait h hc ha, List.singleton_append,
    runOps_busR_nack (s := s.waited a (b :: r)) h rfl hb, busRead_of_cons (s := s.waited a (b :: r)) rfl]
  simp only [State.raise, State.setHstat, State.waited, List.append_assoc]
  rfl

end

/-! ### The statements -/

/-- Settles O20: check 3 refuses in one case and check 4 in the other. -/
theorem prologueRefusesSubstrate : Obligations.PrologueRefusesSubstrate := by
  intro i s hc hs hwf
  exact ⟨fun hneed hsubst => exec_refused hc hs hwf (prologue_wrongSubstrate hneed hsubst),
    fun hneed hsubst hready => exec_refused hc hs hwf (prologue_busNotReady hneed hsubst hready)⟩

/-- Settles O29: the address, the read mode and the high byte pass; the read of the low byte is the last line. -/
theorem rdwordNackLeavesUnlocked : Obligations.RdwordNackLeavesUnlocked := by
  intro s ea w rest hs hea hc h1 h2 h3 hhi h4 hlo
  obtain ⟨hstart, hsubst, hready⟩ := hs
  have ⟨_, hhost⟩ := hstart
  rw [exec_rdword hea hstart fun _ => hready, hsubst]
  refine congrArg _ ?_
  change runOps (eeReadLive ea storeB0 storeB1 ++ _) _ = _
  simp only [eeReadLive, List.append_assoc]
  refine Eq.trans (runOps_waitWrite hhost hc h1 rfl) ?_
  refine Eq.trans (runOps_waitWrite hhost rfl h2 rfl) ?_
  refine Eq.trans (runOps_waitRead (g := fun x t => { t with b1 := x }) hhost rfl h3 hhi) ?_
  refine Eq.trans (runOps_waitRead_nack hhost rfl h4 hlo) ?_
  simp only [State.waitWritten, State.waitGot, List.append_assoc]
  rfl

end Sys2Proof.Machine
end

section
/-! Reset and the guarded registers (70_reset_and_hazards R191, R193, R200): what a reset step leaves, and that a write
to a guarded register while BUSY only raises OVR. -/

namespace Sys2Proof.Machine

/-! ### Guarded registers (10_state R34) -/

/-- The guarded registers are HCMD, HCFG, HPOLL, HIMGA and HIMGD. -/
theorem guardedOffset_iff (off : Nat) : guardedOffset off = true ↔ off ∈ [0x00, 0x10, 0x14, 0x18, 0x1C] := by
  simp [guardedOffset, offHcmd, offHcfg, offHpoll, offHimga, offHimgd, or_assoc]

theorem hostWrite_guarded_busy {s : State} {off : Nat} {w : Word32} (hg : guardedOffset off = true)
    (hb : s.hstat.busy = true) : s.hostWrite off w = s.setHstat s.hstat.overrun := by
  rw [State.hostWrite, if_pos (by rw [hg, hb]; rfl)]

/-! ### Reset (70_reset_and_hazards R191, R193) -/

theorem step_reset {s : State} {rest : List HostAct} (h : s.host = .reset :: rest) :
    step s = .next (s.setHost rest).hwReset := by
  unfold step
  rw [h]
  rfl

theorem Hstat.reset_word : Hstat.reset.word = 0 := by decide

/-- Resetting the machine right after reset changes nothing. -/
theorem State.hwReset_reset : State.reset.hwReset = State.reset := rfl

/-! ### The statements -/

/-- Settles O14: the write falls under the guard before it is told which register it names. -/
theorem guardedWritesDroppedWhileBusy : Obligations.GuardedWritesDroppedWhileBusy := by
  intro s off w rest hb hoff hh
  have hg : guardedOffset off = true := (guardedOffset_iff off).mpr hoff
  rw [step_write hh, hostWrite_guarded_busy (s := s.setHost rest) hg hb]
  rfl

/-- Settles O18: the next state is the reset machine in s's environment, with no byte of IMG valid. -/
theorem resetClearsRegisters : Obligations.ResetClearsRegisters := by
  intro s rest hh
  have hvalid : ∀ j, (s.setHost rest).hwReset.img.valid j = false := fun _ => rfl
  exact ⟨_, step_reset hh, rfl, rfl, rfl, rfl, rfl, Hstat.reset_word, rfl, rfl, rfl, rfl, hvalid, rfl, rfl, rfl, rfl⟩

/-- Settles O54: a reset gives the invariant from any state, the reset one among them. -/
theorem invAtReset : Obligations.InvAtReset := by
  unfold Obligations.InvAtReset
  rw [← State.hwReset_reset]
  exact State.hwReset_inv State.reset

end Sys2Proof.Machine
end
